-- ==== Sys2Proof/Word.lean ====
section
/-! DEFINITION. The plain value types of the Rescada LCH-15: what its numbers range over. -/

namespace Sys2Proof

/-- A byte of the host port (R173). -/
abbrev Byte := BitVec 8

/-- A frame number: 32 bits wide, and it wraps (R138). -/
abbrev FrameNumber := BitVec 32

/-- An epoch or a set number, modulo 256 (R75). -/
abbrev Epoch := BitVec 8

/-- A generation, 0 to 15, modulo 16 (R3). -/
abbrev Generation := BitVec 4

/-- A stream number; 0 names no stream (R186). -/
abbrev Stream := BitVec 8

/-- A term in units of 64 frames, 0 to 1023 (R6). -/
abbrev Term := BitVec 10

/-- A place on the chain: 0 is the head, 1 to 15 are members (spec/00_scope). -/
abbrev Position := Fin 16

/-- An index into the Lease Table (R1). -/
abbrev LeaseIndex := Fin 128

/-- A channel of the local port (R154). -/
abbrev Channel := Fin 32

/-- A set of positions, coded as the listener mask is (R190): bit p is set when p is in the set. -/
abbrev Listeners := BitVec 16

/-- A chain word (R186). Bit 0, the first on the line, is the most significant bit. -/
abbrev ChainWord := BitVec 64


/-- The reasons of an attention item, one bit each, in the places R191 gives them. -/
abbrev Reasons := BitVec 5

end Sys2Proof
end

