-- ==== Sys2Proof/Syntax.lean ====
section
/-! DEFINITION. The commands: one constructor per row of spec/opcode_table.json. -/

namespace Sys2Proof

/-- The two moments of an answer read at which the port acts (R178). -/
inductive ReadMoment where
  /-- The eighth bit of the selector has been sampled: the content of the read is fixed. -/
  | selector
  /-- HCS_N rises after `bits` bits were clocked behind the selector. -/
  | finish (bits : Nat)
deriving DecidableEq, Repr

/-- A command of the block. A request of the host or of a member carries no operand: it is the event
in which the Request Engine takes the request that waits in the slot or at the head of the queue
(R44), and its parameters are the ones waiting there. -/
inductive Instr where
  /-- REQUEST_WRITE: the whole bytes taken after the selector, and the bits of an incomplete last byte (R174). -/
  | requestWrite (frame : List Byte) (strayBits : Fin 8)
  /-- ANSWER_READ (R178). -/
  | answerRead (moment : ReadMoment)
  /-- STATUS_READ (R180). -/
  | statusRead
  /-- UNKNOWN_SELECTOR: the first byte, which names no transaction (R173). -/
  | unknownSelector (selector : Byte)
  /-- DEVICE_RESET: the reset begins (R182). -/
  | deviceReset
  /-- RESET_END: the reset ends (R182). -/
  | resetEnd
  | create
  | shape
  | addListener
  | dropListener
  | retire
  | renew
  | setRights
  | bindLocal
  | query
  | resolve
  | repack
  | publish
  | setPublishing
  | readMember
  | setExpected
  | setAdmission
  | chainStart
  | chainStop
  | fetchAttention
  | readStatus
  | unknownCommand
  | memberCreate
  | memberShape
  | listen
  | quit
  | memberRetire
  | memberRenew
  | memberResolve
  | memberOpNone
  /-- FRAME_START (R138). -/
  | frameStart
  /-- EXPIRY of the lease in one entry (R102). -/
  | expiry (lease : LeaseIndex)
  /-- BATCH_WINDOW_END (R77). -/
  | batchWindowEnd
  /-- SET_APPLICATION (R92). -/
  | setApplication
  /-- CONTROL_MESSAGE_CHOICE (R141). -/
  | controlMessageChoice
  /-- RESPONSE_WORD: the 64 bits of the response part on hop 0, first bit most significant; all zeros
  when no position drove it (R146, R188). -/
  | responseWord (word : ChainWord)
  /-- DOWN_REGION_DRIVE (R149). -/
  | downRegionDrive
  /-- UP_SLOT_READ: the slot of the lease in one entry, and the UP region of hop 0 as it arrives in the
  frame, offset 0 at the most significant bit; the head reads the slot where the lease's active
  configuration lies in it (R24, R150, R151). -/
  | upSlotRead (lease : LeaseIndex) (slot : Fin 8) (region : BitVec 440)
  /-- MEMBER_LOSS of the member at one position (R123). -/
  | memberLoss (position : Position)
  /-- ADMISSION_FAILURE of the ADMITTING position (R121). -/
  | admissionFailure (position : Position)
  /-- LBCK_PERIOD: the level of LSDI in the period (R154). -/
  | lbckPeriod (lsdi : Bool)
  /-- SELECT_PERIOD_START: HCS_N falls (R173). -/
  | selectPeriodStart
deriving DecidableEq, Repr

end Sys2Proof
end

