-- ==== Sys2Proof/Config.lean ====
section
/-! DEFINITION. The constants the manual fixes. The spec leaves no value to an implementation, so no
constant without a body stands here. -/

namespace Sys2Proof.Config

/-- Each region spans offsets 0 to 439 (R23). -/
def regionBits : Nat := 440

/-- A term unit is 64 frames (R6). -/
def termUnit : FrameNumber := 64

/-- An open call falls due 256 frames after the last (R116). -/
def openCallInterval : Nat := 256

/-- The nine-bit code for "no offset" (R186). -/
def noOffset : Nat := 511

/-- The batch window after device reset (R74). -/
def defaultWindow : Byte := 16

/-- LBCK periods of a local frame (R154). -/
def localPeriods : Nat := 1024

/-- Selector byte of a request write (section 11.2). -/
def selRequestWrite : Byte := 0x1D

/-- Selector byte of an answer read (section 11.2). -/
def selAnswerRead : Byte := 0x2E

/-- Selector byte of a status read (section 11.2). -/
def selStatusRead : Byte := 0x3B

end Sys2Proof.Config
end

