-- ==== Sys2Proof/Machine/State.lean ====
section
/-! DEFINITION. The state of the device, block by block as spec/00_scope names the blocks, the state
right after reset, and the reasons for which a step can stop. -/

namespace Sys2Proof.Machine

/-! ## The Lease Table -/

/-- Traffic direction (spec/00_scope). -/
inductive Direction where
  | down
  | up
deriving DecidableEq, Repr

/-- A width code, 0 to 5 (R7). -/
inductive Width where
  | w8
  | w12
  | w16
  | w20
  | w24
  | w32
deriving DecidableEq, Repr

/-- A configuration (R7). -/
structure Configuration where
  width     : Width
  count     : Nat
  listeners : Listeners
  placement : Option Nat
deriving DecidableEq, Repr

/-- The cause of a retirement mark, with the requester where it has one (R13). -/
inductive Cause where
  | requested (requester : Position)
  | expired
  | orphaned
deriving DecidableEq, Repr

/-- The stage of a retirement mark (R13). -/
inductive MarkStage where
  | staged
  | sealed
deriving DecidableEq, Repr

/-- A retirement mark (R13). -/
structure Mark where
  cause : Cause
  stage : MarkStage
deriving DecidableEq, Repr

/-- A sealed change: a configuration or a retirement (R9, R19). -/
inductive SealedChange where
  | config (c : Configuration)
  | retirement
deriving DecidableEq, Repr

/-- The lease record of section 1.2. The field "state" of that table follows from the mark (R13) and
is the view `Lease.state`. -/
structure Lease where
  stream       : Stream
  owner        : Position
  source       : Position
  direction    : Direction
  listenOpen   : Bool
  shapeOpen    : Bool
  term         : Term
  expiry       : Option FrameNumber
  active       : Configuration
  sealed       : Option SealedChange
  staged       : Option Configuration
  mark         : Option Mark
  base         : Option Channel
  heard        : Bool
  parityFaults : Byte
deriving DecidableEq, Repr

/-- An entry of the Lease Table: FREE when it holds no lease (R1). -/
structure Entry where
  generation : Generation
  lease      : Option Lease
deriving DecidableEq, Repr

/-- A handle (R2). -/
structure Handle where
  index      : LeaseIndex
  generation : Generation
deriving DecidableEq, Repr

/-! ## The Request Engine -/

/-- The status codes of R69. -/
inductive Status where
  | none
  | done
  | staged
  | denied
  | noRoom
  | tableFull
  | inUse
  | notFound
  | staleHandle
  | invalid
  | gone
  | limit
  | busy
  | notRunning
deriving DecidableEq, Repr

/-- An entry of the member request queue (R43). The operation and its fields are the 40 payload bits
as the response word carried them (R131, R188). -/
structure QueueEntry where
  position : Position
  payload  : BitVec 40
  overrun  : Bool
deriving DecidableEq, Repr

/-- Whose turn it is (R44). -/
inductive Turn where
  | host
  | member
deriving DecidableEq, Repr

/-- The state the Request Engine owns. -/
structure RequestEngine where
  queue : List QueueEntry
  turn  : Turn
deriving DecidableEq, Repr

/-! ## The Layout Publisher -/

/-- The publishing mode (R65). -/
inductive PublishingMode where
  | auto
  | manual
deriving DecidableEq, Repr

/-- What a delta does to its lease (R83). -/
inductive DeltaKind where
  | config (c : Configuration)
  | retire (cause : Cause)
deriving DecidableEq, Repr

/-- A delta of a change set (R83). -/
structure Delta where
  handle : Handle
  kind   : DeltaKind
deriving DecidableEq, Repr

/-- A notice: the index of its delta in the set, the member it is for, and whether it is ACKED (R84). -/
structure Notice where
  delta    : Nat
  position : Position
  acked    : Bool
deriving DecidableEq, Repr

/-- A change set record (R82 to R86). The rotation position is absent when the set holds no notice. -/
structure ChangeSet where
  number   : Epoch
  deltas   : List Delta
  notices  : List Notice
  rotation : Option Position
deriving DecidableEq, Repr

/-- The publisher state with what is present in that state only (section 4.1). -/
inductive PublisherStage where
  | idle
  | batching (sealFrame : FrameNumber)
  | notifying (set : ChangeSet)
  | switching (set : ChangeSet) (switchFrame : FrameNumber)
deriving DecidableEq, Repr

/-- The state the Layout Publisher owns (R74). -/
structure Publisher where
  mode   : PublishingMode
  window : Byte
  epoch  : Epoch
  stage  : PublisherStage
deriving DecidableEq, Repr

/-! ## The Member Table -/

/-- The state of a position (R114). -/
inductive MemberState where
  | vacant
  | admitting
  | joined
  | lost
deriving DecidableEq, Repr

/-- What a member says about itself in a JOIN (section 6.1). -/
structure Identity where
  vendor      : BitVec 16
  product     : BitVec 8
  revision    : BitVec 8
  sourceLimit : BitVec 4
  listenLimit : BitVec 4
deriving DecidableEq, Repr

/-- An expected identity (R115). -/
structure Expected where
  vendor  : BitVec 16
  product : BitVec 8
deriving DecidableEq, Repr

/-- A pending answer (R45), with its result bits as R189 lays them out. -/
structure PendingAnswer where
  operation : BitVec 3
  status    : Status
  overrun   : Bool
  handle    : Handle
  result    : BitVec 22
deriving DecidableEq, Repr

/-- A member record (section 6.1). -/
structure Member where
  state    : MemberState
  identity : Option Identity
  expected : Option Expected
  misses   : Nat
  answer   : Option PendingAnswer
deriving DecidableEq, Repr

/-- The admission mode (R115). -/
inductive AdmissionMode where
  | openMode
  | listed
  | closed
deriving DecidableEq, Repr

/-- The state the Member Table owns (R113). Record k is that of position k + 1. -/
structure MemberTable where
  records      : Vector Member 15
  admission    : AdmissionMode
  lastOpenCall : Option FrameNumber
  missLimit    : Option Nat
deriving DecidableEq, Repr

/-! ## The Chain Engine -/

/-- The chain state (R133). -/
inductive ChainState where
  | stopped
  | running
deriving DecidableEq, Repr

/-- The frame rate (R134). -/
inductive Rate where
  | r48000
  | r44100
deriving DecidableEq, Repr

/-- A delivery that waits for the control slot (R143). -/
inductive Delivery where
  | answer (p : Position)
  | assign (p : Position)
deriving DecidableEq, Repr

/-- The alternation mark (R144). -/
inductive Alternation where
  | answer
  | notice
deriving DecidableEq, Repr

/-- The kinds of control message that are addressed to one position (R139); a NOTICE with the index of its delta. -/
inductive Addressed where
  | poll
  | answer
  | notice (delta : Nat)
  | assign
deriving DecidableEq, Repr

/-- The control message of a frame, as far as the response word is judged by it (R146). -/
inductive Message where
  | idle
  | switch
  | openCall (target : Position)
  | addressed (kind : Addressed) (p : Position)
deriving DecidableEq, Repr

/-- The control message of a frame and its 64 bits on hop 0 (R187). -/
structure Control where
  message : Message
  word    : ChainWord
deriving DecidableEq, Repr

/-- How far the frame in progress has come: what R135 abandons at a chain stop. -/
structure FrameProgress where
  /-- a frame has started since the chain did (R134) -/
  started    : Bool
  /-- the control message, once it is chosen (R141) -/
  control    : Option Control
  /-- the response word has been taken (R146) -/
  responded  : Bool
  /-- the DOWN region of hop 0, once the head has driven it; offset 0 is the most significant bit (R149) -/
  downRegion : Option (BitVec 440)
  /-- the UP slots the head has read in the frame (R150) -/
  slotsRead  : List (LeaseIndex × Fin 8)
deriving DecidableEq, Repr

/-- The state the Chain Engine owns (section 7.1). -/
structure ChainEngine where
  state       : ChainState
  counter     : FrameNumber
  rate        : Rate
  lead        : Option Nat
  delivery    : List Delivery
  alternation : Option Alternation
  pollMark    : Option Position
  frame       : FrameProgress
deriving DecidableEq, Repr

/-! ## The Local Port -/

/-- A channel of the input bank: complete with a word, or incomplete with word 0 (R155). -/
structure InputWord where
  word     : BitVec 32
  complete : Bool
deriving DecidableEq, Repr

/-- The state the Local Port owns (R154 to R156). -/
structure LocalPort where
  periods   : Nat
  capture   : Vector (BitVec 32) 32
  input     : Vector InputWord 32
  sending   : Vector (BitVec 32) 32
  gathering : Vector (BitVec 32) 32
  lfs       : Bool
  lsdo      : Bool
deriving DecidableEq, Repr

/-! ## The Attention Unit -/

/-- A lease item: the generation of the handle it carries, and its reasons (R166). -/
structure LeaseItem where
  generation : Generation
  reasons    : Reasons
deriving DecidableEq, Repr

/-- The attention set (R163). The device item and a member item are absent when they hold no reason. -/
structure AttentionSet where
  device  : Reasons
  members : Vector Reasons 15
  leases  : Vector (Option LeaseItem) 128
deriving DecidableEq, Repr

/-! ## The Host Port -/

/-- A request as the slot holds it (R175). -/
structure HostRequest where
  command : Byte
  tag     : Byte
  params  : List Byte
deriving DecidableEq, Repr

/-- The request slot and the answer buffer together (R176). -/
inductive Slot where
  | empty
  | waiting (request : HostRequest)
  | answered (request : HostRequest) (answer : List Byte)
deriving DecidableEq, Repr

/-- Where the select period stands (R173, R178, R182). -/
inductive Select where
  /-- HCS_N is high. -/
  | high
  /-- HCS_N is low and no selector has been decoded. -/
  | low
  /-- An answer read: the frame it shifts out, and whether that is the answer in the buffer. -/
  | answering (frame : List Byte) (fromBuffer : Bool)
  /-- HCS_N fell during or before a device reset: ignored until it rises. -/
  | ignored
deriving DecidableEq, Repr

/-- The state the Host Port owns. `hsdo` is what the port gives on HSDO in the select period, or gave
in the last one, up to the zero bytes that follow for as long as the host clocks. -/
structure HostPort where
  slot       : Slot
  checkError : Bool
  slotFull   : Bool
  select     : Select
  hsdo       : List Byte
deriving DecidableEq, Repr

/-! ## The device -/

/-- The device. `pending` is the model's own: the commands that wait, first in, first out. -/
structure State where
  leases    : Vector Entry 128
  engine    : RequestEngine
  publisher : Publisher
  members   : MemberTable
  chain     : ChainEngine
  localPort : LocalPort
  attention : AttentionSet
  hostPort  : HostPort
  inReset   : Bool
  pending   : List Instr
deriving DecidableEq, Repr

/-- No command faults: the spec describes no event that stops the device. -/
inductive Fault where
deriving DecidableEq, Repr

/-- Why a command has no outcome. -/
inductive Refusal where
  /-- Raised by `exec` for a command that has no meaning yet; safe. No arm of `exec` raises it now. -/
  | notModelled (mnemonic : String)
deriving DecidableEq, Repr

/-! ## Reset values -/

/-- A position after device reset (R113). -/
def Member.vacant : Member :=
  { state := .vacant, identity := none, expected := none, misses := 0, answer := none }

/-- No frame in progress (R133). -/
def FrameProgress.none : FrameProgress :=
  { started := false, control := .none, responded := false, downRegion := .none, slotsRead := [] }

/-- The Chain Engine after device reset (R133). -/
def ChainEngine.reset : ChainEngine :=
  { state := .stopped, counter := 0, rate := .r48000, lead := none, delivery := [],
    alternation := none, pollMark := none, frame := .none }

/-- The Local Port after device reset, and right after a chain start or stop (R154, R162). -/
def LocalPort.silent : LocalPort :=
  { periods := 0
    capture := Vector.replicate 32 0
    input := Vector.replicate 32 ⟨0, false⟩
    sending := Vector.replicate 32 0
    gathering := Vector.replicate 32 0
    lfs := false
    lsdo := false }

/-- The empty attention set (R163). -/
def AttentionSet.empty : AttentionSet :=
  { device := 0, members := Vector.replicate 15 0, leases := Vector.replicate 128 none }

/-- The device right after reset (R182): every block at its device reset values, the reset ended. -/
def State.reset : State :=
  { leases := Vector.replicate 128 ⟨0, none⟩
    engine := { queue := [], turn := .host }
    publisher := { mode := .auto, window := Config.defaultWindow, epoch := 0, stage := .idle }
    members :=
      { records := Vector.replicate 15 Member.vacant, admission := .openMode
        lastOpenCall := none, missLimit := none }
    chain := ChainEngine.reset
    localPort := LocalPort.silent
    attention := AttentionSet.empty
    hostPort := { slot := .empty, checkError := false, slotFull := false, select := .high, hsdo := [] }
    inReset := false
    pending := [] }

end Sys2Proof.Machine
end

