-- ==== Sys2Proof/Machine/Ops.lean ====
section
/-! DEFINITION. The named operations over the device's state: reading and writing lease entries and
member records, the views that follow from the entries, raising attention, and telling the publisher
that a change was staged. -/

namespace Sys2Proof.Machine

/-! ## Indices -/

/-- All lease indices, ascending (R1). -/
def allLeases : List LeaseIndex := List.finRange 128

/-- All member positions, ascending (R113). -/
def memberPositions : List Position := [1, 2, 3, 4, 5, 6, 7, 8, 9, 10, 11, 12, 13, 14, 15]

/-- The place of a member position's record. -/
def memberIndex (p : Position) : Fin 15 := ⟨p.val - 1, by omega⟩

/-- Whether a position is in a listener set (R190). -/
def hasListener (l : Listeners) (p : Position) : Bool := l.getLsbD p.val

/-- The set with one position added. -/
def withListener (l : Listeners) (p : Position) : Listeners := l ||| BitVec.twoPow 16 p.val

/-- The set with one position removed. -/
def withoutListener (l : Listeners) (p : Position) : Listeners := l &&& ~~~(BitVec.twoPow 16 p.val)

/-- A frame number a is later than b (spec/00_scope, R138). -/
def laterThan (a b : FrameNumber) : Bool := decide (0 < (a - b).toNat) && decide ((a - b).toNat < 2 ^ 31)

/-! ## Configurations and leases -/

/-- The slot width in bits (R7). -/
def Width.bits : Width → Nat
  | .w8 => 8
  | .w12 => 12
  | .w16 => 16
  | .w20 => 20
  | .w24 => 24
  | .w32 => 32

/-- The width code (spec/00_scope). -/
def Width.code : Width → BitVec 3
  | .w8 => 0
  | .w12 => 1
  | .w16 => 2
  | .w20 => 3
  | .w24 => 4
  | .w32 => 5

/-- The width a code names; 6 and 7 name none (R46). -/
def Width.ofCode : Nat → Option Width
  | 0 => some .w8
  | 1 => some .w12
  | 2 => some .w16
  | 3 => some .w20
  | 4 => some .w24
  | 5 => some .w32
  | _ => none

/-- The cost in bus bits (R7). -/
def Configuration.cost (c : Configuration) : Nat := c.count * (c.width.bits + 2)

/-- The configuration has a placement. -/
def Configuration.placed (c : Configuration) : Bool := c.placement.isSome

/-- The configuration with no listeners and no placement (R17, R22). -/
def Configuration.unplaced (c : Configuration) : Configuration :=
  { c with listeners := 0, placement := none }

/-- The three states of a non-FREE lease (R13). -/
inductive LeaseState where
  | live
  | retiring
  | going
deriving DecidableEq, Repr

/-- The state that the retirement mark gives (R13). -/
def Lease.state (l : Lease) : LeaseState :=
  match l.mark with
  | none => .live
  | some m => match m.stage with
    | .staged => .retiring
    | .sealed => .going

/-- The sealed configuration, when the sealed change is one (R9). -/
def Lease.sealedConfig (l : Lease) : Option Configuration :=
  match l.sealed with
  | some (.config c) => some c
  | _ => none

/-- The latest configuration (R9). -/
def Lease.latest (l : Lease) : Configuration :=
  match l.staged with
  | some c => c
  | none => match l.sealedConfig with
    | some c => c
    | none => l.active

/-- The configurations the lease holds: active, sealed and staged (R9). -/
def Lease.configurations (l : Lease) : List Configuration :=
  l.active :: (l.sealedConfig.toList ++ l.staged.toList)

/-- The largest slot count among the lease's configurations (R11). -/
def Lease.largestCount (l : Lease) : Nat :=
  l.configurations.foldl (fun n c => max n c.count) 0

/-- Some configuration of the lease names the position as a listener (R51). -/
def Lease.listensAt (l : Lease) (p : Position) : Bool :=
  l.configurations.any fun c => hasListener c.listeners p

/-- The lease names the position as source or listener (R129). -/
def Lease.names (l : Lease) (p : Position) : Bool := l.source == p || l.listensAt p

/-- A sealing would make the lease a delta (R19). -/
def Lease.hasStaged (l : Lease) : Bool := l.staged.isSome || l.state == .retiring

/-- Nothing is placed and nothing is in flight (R16). -/
def Lease.retiresAtOnce (l : Lease) : Bool :=
  !l.active.placed && l.sealed.isNone && !(l.staged.any Configuration.placed)

/-- The channels that a local binding reserves: the base and their number (R11). -/
def Lease.reservation (l : Lease) : Option (Nat × Nat) :=
  l.base.map fun b => (b.val, l.largestCount)

/-! ## Entries -/

/-- The lease in an entry, absent when the entry is FREE (R1). -/
def State.lease? (s : State) (i : LeaseIndex) : Option Lease := s.leases[i].lease

/-- The handle that names the entry now (R2). -/
def State.handleOf (s : State) (i : LeaseIndex) : Handle := ⟨i, s.leases[i].generation⟩

/-- The stream map (R10): the index of the non-FREE lease with the stream. -/
def State.streamMap (s : State) (n : Stream) : Option LeaseIndex :=
  allLeases.find? fun i => (s.lease? i).any fun l => l.stream == n

/-- The local channel map (R11): the index of the lease that reserves the channel. -/
def State.channelMap (s : State) (c : Nat) : Option LeaseIndex :=
  allLeases.find? fun i => (s.lease? i).any fun l =>
    l.reservation.any fun r => decide (r.1 ≤ c) && decide (c < r.1 + r.2)

/-- The number of non-FREE leases (R68). -/
def State.leaseCount (s : State) : Nat := allLeases.countP fun i => (s.lease? i).isSome

/-- The source count of a position (R51). -/
def State.sourceCount (s : State) (p : Position) : Nat :=
  allLeases.countP fun i => (s.lease? i).any fun l => l.source == p

/-- The listen count of a position (R51). -/
def State.listenCount (s : State) (p : Position) : Nat :=
  allLeases.countP fun i => (s.lease? i).any fun l => l.listensAt p

/-- Some non-FREE lease names the position as source or listener (R129). -/
def State.named (s : State) (p : Position) : Bool :=
  allLeases.any fun i => (s.lease? i).any fun l => l.names p

/-- At least one lease holds a staged configuration or a STAGED mark (R82). -/
def State.anyStaged (s : State) : Bool :=
  allLeases.any fun i => (s.lease? i).any Lease.hasStaged

/-- The lowest FREE entry (R21). -/
def State.lowestFree (s : State) : Option LeaseIndex :=
  allLeases.find? fun i => (s.lease? i).isNone

/-! ## Member records -/

/-- The record of a position. The head has none; it reads as a vacant one. -/
def State.member (s : State) (p : Position) : Member :=
  if p = 0 then Member.vacant else s.members.records[memberIndex p]

/-- Replaces the record of a member position. -/
def State.setMember (s : State) (p : Position) (m : Member) : State :=
  if p = 0 then s
  else { s with members := { s.members with records := s.members.records.set (memberIndex p) m } }

/-- The position holds a JOINED member. -/
def State.joined (s : State) (p : Position) : Bool := (s.member p).state == .joined

/-- The position is 0 or JOINED (R50, first check). -/
def State.usable (s : State) (p : Position) : Bool := p == 0 || s.joined p

/-- The position's entry in the member request queue is present (section 6.1). -/
def State.queued (s : State) (p : Position) : Bool := s.engine.queue.any fun e => e.position == p

/-! ## Attention -/

/-- Device: a change set was applied. -/
def Reason.setApplied : Reasons := 1
/-- Device: the member at position 1 was lost. -/
def Reason.linkLost : Reasons := 2
/-- Member: the position became JOINED. -/
def Reason.joined : Reasons := 1
/-- Member: a JOIN was refused. -/
def Reason.refused : Reasons := 2
/-- Member: the admission failed. -/
def Reason.admitFailed : Reasons := 4
/-- Member: the position became LOST. -/
def Reason.lost : Reasons := 8
/-- Member: the position was released. -/
def Reason.vacated : Reasons := 16
/-- Lease: a member request succeeded. -/
def Reason.memberAction : Reasons := 1
/-- Lease: the lease expired. -/
def Reason.expired : Reasons := 2
/-- Lease: the source was lost. -/
def Reason.orphaned : Reasons := 4
/-- Lease: the lease went FREE. -/
def Reason.retired : Reasons := 8
/-- Lease: an earlier lease's reasons were discarded. -/
def Reason.superseded : Reasons := 16

/-- One raise on a lease item: the reason joins the item, or supersedes one of another generation (R167, R168). -/
def raiseItem (item : Option LeaseItem) (g : Generation) (r : Reasons) : Option LeaseItem :=
  match item with
  | none => some ⟨g, r⟩
  | some it => if it.generation = g then some ⟨g, it.reasons ||| r⟩ else some ⟨g, r ||| Reason.superseded⟩

/-- Raises in turn on one lease item (R167). -/
def raiseItems (item : Option LeaseItem) (g : Generation) (rs : List Reasons) : Option LeaseItem :=
  rs.foldl (fun it r => raiseItem it g r) item

/-- Raises a reason on the device item (R164). -/
def State.raiseDevice (s : State) (r : Reasons) : State :=
  { s with attention := { s.attention with device := s.attention.device ||| r } }

/-- Raises a reason on a member item (R165). -/
def State.raiseMember (s : State) (p : Position) (r : Reasons) : State :=
  if p = 0 then s
  else { s with attention := { s.attention with
    members := s.attention.members.set (memberIndex p) (s.attention.members[memberIndex p] ||| r) } }

/-- The number of items in the attention set, 0 to 144 (R172). -/
def AttentionSet.items (a : AttentionSet) : Nat :=
  (if a.device = 0 then 0 else 1)
    + (List.finRange 15).countP (fun k => a.members[k] != 0)
    + (List.finRange 128).countP (fun i => a.leases[i].isSome)

/-! ## The publisher hears of a staged change -/

/-- A window counted from frame n ends at n + W + 1 (R76, R93). -/
def sealFrameFrom (n : FrameNumber) (w : Byte) : FrameNumber := n + w.zeroExtend 32 + 1

/-- In AUTO mode a change staged while the publisher is IDLE and the chain RUNNING opens a batch
window; in any other case the publisher stays as it is (R76, R78, R81). -/
def State.noteStaged (s : State) : State :=
  if s.publisher.mode = .auto ∧ s.publisher.stage = .idle ∧ s.chain.state = .running then
    { s with publisher := { s.publisher with
      stage := .batching (sealFrameFrom s.chain.counter s.publisher.window) } }
  else s

/-! ## Events on lease entries -/

/-- What an event makes of one entry: the entry after it, the reasons it raises on the lease's item
with the handle the lease held before it (R166), and whether it staged a change (R76). -/
structure EntryEvent where
  entry  : Entry
  raised : List Reasons
  staged : Bool
deriving DecidableEq, Repr

/-- The event does not act on the entry. -/
def EntryEvent.unchanged (e : Entry) : EntryEvent := ⟨e, [], false⟩

/-- The lease of the entry becomes `l`, and nothing is raised or staged. -/
def Entry.put (e : Entry) (l : Lease) : EntryEvent := ⟨{ e with lease := some l }, [], false⟩

/-- The lease of the entry becomes `l` by a staging. -/
def Entry.stage (e : Entry) (l : Lease) : EntryEvent := ⟨{ e with lease := some l }, [], true⟩

/-- The entry goes FREE: it keeps only its generation, advanced by one modulo 16 (R3, R21). -/
def Entry.freed (e : Entry) : Entry := ⟨e.generation + 1, none⟩

/-- The entry goes FREE, and RETIRED is raised unless the host asked for it (R21). -/
def Entry.free (e : Entry) (byHost : Bool) : EntryEvent :=
  ⟨e.freed, if byHost then [] else [Reason.retired], false⟩

/-- The event with one more reason, raised first. -/
def EntryEvent.raising (ev : EntryEvent) (r : Reasons) : EntryEvent := { ev with raised := r :: ev.raised }

/-- The lease item of an index after an event on its entry (R166, R167). -/
def State.itemAfter (s : State) (i : LeaseIndex) (ev : EntryEvent) : Option LeaseItem :=
  raiseItems s.attention.leases[i] s.leases[i].generation ev.raised

/-- Takes an event on one entry: the entry, its attention item and the publisher change together. -/
def State.onEntry (s : State) (i : LeaseIndex) (ev : EntryEvent) : State :=
  let t : State := { s with
    leases := s.leases.set i ev.entry
    attention := { s.attention with leases := s.attention.leases.set i (s.itemAfter i ev) } }
  if ev.staged then t.noteStaged else t

/-- Takes one event on every entry; the entries are independent of one another. -/
def State.onEveryEntry (s : State) (f : LeaseIndex → Entry → EntryEvent) : State :=
  let t : State := { s with
    leases := Vector.ofFn fun i => (f i s.leases[i]).entry
    attention := { s.attention with leases := Vector.ofFn fun i => s.itemAfter i (f i s.leases[i]) } }
  if allLeases.any fun i => (f i s.leases[i]).staged then t.noteStaged else t

/-! ## Retirement and renewal of one lease -/

/-- The retirement was asked for by the host: the lease goes FREE without RETIRED (R21). -/
def Cause.byHost : Cause → Bool
  | .requested p => p == 0
  | _ => false

/-- A retirement event on a LIVE lease: at once when R16 allows it, else a STAGED mark (R14, R16). -/
def retireLive (e : Entry) (l : Lease) (cause : Cause) : EntryEvent :=
  if l.retiresAtOnce then e.free cause.byHost
  else e.stage { l with mark := some ⟨cause, .staged⟩ }

/-- The expiry frame of a lease created or renewed in frame n (R6, R101); absent for term 0. -/
def expiryFrom (n : FrameNumber) (t : Term) : Option FrameNumber :=
  if t = 0 then none else some (n + t.zeroExtend 32 * Config.termUnit)

/-- A renewal in frame n with the term in force after it (R104, R106, R107); absent where the mark
stays as it is (REQUESTED, ORPHANED, or SEALED). -/
def Lease.renewed (l : Lease) (n : FrameNumber) (t : Term) : Option Lease :=
  match l.mark with
  | none => some { l with term := t, expiry := expiryFrom n t }
  | some ⟨.expired, .staged⟩ => some { l with mark := none, term := t, expiry := expiryFrom n t }
  | some _ => none

end Sys2Proof.Machine
end

