-- ==== Sys2Proof/Machine/Formats.lean ====
section
/-! DEFINITION. The layouts of the Formats chapter: check bytes, chain words and the frames of the host
port. -/

namespace Sys2Proof.Machine

/-! ## Check bytes -/

/-- One bit of the CRC-8 with generator x^8 + x^2 + x + 1 (R185). -/
def crcShift (c : Byte) : Byte := if c.msb then (c <<< 1) ^^^ 0x07 else c <<< 1

/-- One byte of the CRC-8, most significant bit first (R185). -/
def crcByte (c b : Byte) : Byte :=
  crcShift (crcShift (crcShift (crcShift (crcShift (crcShift (crcShift (crcShift (c ^^^ b))))))))

/-- The CRC-8 of a run of bytes, initial value 0, no final inversion (R185). -/
def crc8 (bs : List Byte) : Byte := bs.foldl crcByte 0

/-! ## Fields of chain words -/

/-- The `len` bits from bit `first` on, bits numbered in the order they pass (R186). -/
def fieldAt {n : Nat} (w : BitVec n) (first len : Nat) : BitVec len :=
  w.extractLsb' (n - first - len) len

/-- One bit, numbered in the order the bits pass (R186). -/
def bitAt {n : Nat} (w : BitVec n) (k : Nat) : Bool := w.getMsbD k

/-- A position as a field (R186). -/
def posBits (p : Position) : BitVec 4 := BitVec.ofNat 4 p.val

/-- A count as a field: count − 1 (R186). -/
def countBits (n : Nat) : BitVec 3 := BitVec.ofNat 3 (n - 1)

/-- An offset as a field, 511 for none (R186). -/
def offsetBits (o : Option Nat) : BitVec 9 := BitVec.ofNat 9 (o.getD Config.noOffset)

/-- A direction as a field (R186). -/
def Direction.bit : Direction → BitVec 1
  | .down => 0
  | .up => 1

/-- A handle as a field: lease index, then generation (R186). -/
def Handle.bits (h : Handle) : BitVec 11 := BitVec.ofNat 7 h.index.val ++ h.generation

/-- A lease state as a field (R186). -/
def LeaseState.bits : LeaseState → BitVec 2
  | .live => 1
  | .retiring => 2
  | .going => 3

/-- A status code (R69). -/
def Status.code : Status → BitVec 4
  | .none => 0
  | .done => 1
  | .staged => 2
  | .denied => 3
  | .noRoom => 4
  | .tableFull => 5
  | .inUse => 6
  | .notFound => 7
  | .staleHandle => 8
  | .invalid => 9
  | .gone => 10
  | .limit => 11
  | .busy => 12
  | .notRunning => 13

/-- The status carries result fields (R69). -/
def Status.carriesResult : Status → Bool
  | .done => true
  | .staged => true
  | _ => false

/-- A Bool as one bit. -/
def flagBit (b : Bool) : BitVec 1 := BitVec.ofBool b

/-- The role of a member in a NOTICE (R85). -/
inductive Role where
  | none
  | source
  | listener
deriving DecidableEq, Repr

/-- A role as a field (R186). -/
def Role.bits : Role → BitVec 2
  | .none => 0
  | .source => 1
  | .listener => 2

/-! ## The control message -/

/-- The seven bytes that a chain word's check byte covers (R186). -/
def bodyBytes (b : BitVec 56) : List Byte :=
  [fieldAt b 0 8, fieldAt b 8 8, fieldAt b 16 8, fieldAt b 24 8, fieldAt b 32 8, fieldAt b 40 8, fieldAt b 48 8]

/-- A chain word: 56 bits and their check byte (R186). -/
def chainWord (b : BitVec 56) : ChainWord := b ++ crc8 (bodyBytes b)

/-- A control message (R187). -/
def controlWord (kind : BitVec 3) (target : Position) (epoch : Epoch) (payload : BitVec 41) : ChainWord :=
  chainWord (kind ++ posBits target ++ epoch ++ payload)

/-- IDLE (R187). -/
def idleWord (e : Epoch) : ChainWord := controlWord 0 0 e 0

/-- POLL (R187). -/
def pollWord (e : Epoch) (p : Position) : ChainWord := controlWord 1 p e 0

/-- ANSWER, with the payload of R189. -/
def answerWord (e : Epoch) (p : Position) (a : PendingAnswer) : ChainWord :=
  controlWord 2 p e (a.operation ++ a.status.code ++ flagBit a.overrun ++ a.handle.bits ++ a.result)

/-- NOTICE (R187). -/
def noticeWord (e : Epoch) (p : Position) (h : Handle) (st : Stream) (r : Role) (d : Direction) (w : Width)
    (n : Nat) (o : Option Nat) : ChainWord :=
  controlWord 3 p e (h.bits ++ st ++ r.bits ++ d.bit ++ w.code ++ countBits n ++ offsetBits o ++ (0 : BitVec 4))

/-- ASSIGN, with the number of the frame that carries it (R187). -/
def assignWord (e : Epoch) (p : Position) (n : FrameNumber) : ChainWord :=
  controlWord 4 p e (posBits p ++ n ++ (0 : BitVec 5))

/-- SWITCH, with the set number and the switch frame (R187). -/
def switchWord (e : Epoch) (number : Epoch) (f : FrameNumber) : ChainWord :=
  controlWord 5 0 e (number ++ f ++ (0 : BitVec 1))

/-- OPEN_CALL, with the target position for joining (R187). -/
def openCallWord (e : Epoch) (target : Position) : ChainWord :=
  controlWord 6 0 e (posBits target ++ (0 : BitVec 37))

/-! ## Results of member requests (R189) -/

/-- The result of CREATE, SHAPE, LISTEN and QUIT: an offset. -/
def offsetResult (o : Option Nat) : BitVec 22 := offsetBits o ++ (0 : BitVec 13)

/-- The result of RESOLVE. -/
def resolveResult (l : Lease) : BitVec 22 :=
  l.state.bits ++ posBits l.source ++ l.direction.bit ++ l.active.width.code ++ countBits l.active.count
    ++ offsetBits l.active.placement

/-! ## Answer frames of the host port (R191) -/

/-- Two bytes, most significant first (section 11.2). -/
def twoBytes (v : BitVec 16) : List Byte := [fieldAt v 0 8, fieldAt v 8 8]

/-- Four bytes, most significant first (section 11.2). -/
def fourBytes (v : BitVec 32) : List Byte := [fieldAt v 0 8, fieldAt v 8 8, fieldAt v 16 8, fieldAt v 24 8]

/-- A handle as two bytes: index, generation (R190). -/
def Handle.bytes (h : Handle) : List Byte := [BitVec.ofNat 8 h.index.val, h.generation.zeroExtend 8]

/-- An offset as two bytes, 511 for none (R191). -/
def offsetBytes (o : Option Nat) : List Byte := twoBytes ((0 : BitVec 7) ++ offsetBits o)

/-- A shape word (R191). -/
def Configuration.shapeWord (c : Configuration) : BitVec 16 :=
  c.width.code ++ countBits c.count ++ (0 : BitVec 1) ++ offsetBits c.placement

/-- A configuration as four bytes (R191). -/
def Configuration.bytes (c : Configuration) : List Byte := twoBytes c.shapeWord ++ twoBytes c.listeners

/-- An optional configuration; all 0 when absent (R191). -/
def configBytes : Option Configuration → List Byte
  | some c => c.bytes
  | none => [0, 0, 0, 0]

/-- Bits 1 to 0 of byte 5 of a QUERY result: the mark's cause (R191). -/
def markCauseBits : Option Mark → BitVec 2
  | none => 0
  | some m => match m.cause with
    | .requested _ => 1
    | .expired => 2
    | .orphaned => 3

/-- Bit 2 of byte 5 of a QUERY result: the mark's stage (R191). DESIGN CHOICE (A17): 0 when there is no mark,
where R191 gives the bit no value. -/
def markStageBit : Option Mark → BitVec 1
  | some ⟨_, .sealed⟩ => 1
  | _ => 0

/-- Bits 6 to 3 of byte 5 of a QUERY result: the requester (R191). -/
def markRequesterBits : Option Mark → BitVec 4
  | some ⟨.requested p, _⟩ => posBits p
  | _ => 0

/-- The local base as a byte, FFh for none (R191). -/
def baseByte : Option Channel → Byte
  | some b => BitVec.ofNat 8 b.val
  | none => 0xFF

/-- The QUERY result (R191). -/
def queryResult (l : Lease) : List Byte :=
  [flagBit l.staged.isSome ++ flagBit l.expiry.isSome ++ flagBit l.heard ++ flagBit l.shapeOpen
      ++ flagBit l.listenOpen ++ l.direction.bit ++ l.state.bits,
    l.stream,
    posBits l.owner ++ posBits l.source]
  ++ twoBytes (l.term.zeroExtend 16)
  ++ [flagBit l.sealedConfig.isSome ++ markRequesterBits l.mark ++ markStageBit l.mark ++ markCauseBits l.mark,
    baseByte l.base, l.parityFaults]
  ++ fourBytes (l.expiry.getD 0)
  ++ l.active.bytes
  ++ configBytes l.sealedConfig
  ++ configBytes l.staged

/-- The RESOLVE result of the host (R191). -/
def hostResolveResult (h : Handle) (l : Lease) : List Byte :=
  h.bytes ++ [l.state.bits.zeroExtend 8, BitVec.ofNat 8 l.source.val, l.direction.bit.zeroExtend 8]
    ++ twoBytes l.active.shapeWord

/-- A member state's code (R191). -/
def MemberState.code : MemberState → Byte
  | .vacant => 0
  | .admitting => 1
  | .joined => 2
  | .lost => 3

/-- The READ_MEMBER result (R191). DESIGN CHOICE (A17): bits 7 to 4 of byte 1, which R191 does not name, are 0. -/
def readMemberResult (m : Member) (queued : Bool) (sourceCount listenCount : Nat) : List Byte :=
  [m.state.code,
    (0 : BitVec 4) ++ flagBit m.answer.isSome ++ flagBit queued ++ flagBit m.expected.isSome ++ flagBit m.identity.isSome]
  ++ (match m.identity with
      | some d => twoBytes d.vendor ++ [d.product, d.revision, d.sourceLimit ++ d.listenLimit]
      | none => [0, 0, 0, 0, 0])
  ++ (match m.expected with
      | some x => twoBytes x.vendor ++ [x.product]
      | none => [0, 0, 0])
  ++ [BitVec.ofNat 8 m.misses, BitVec.ofNat 8 sourceCount, BitVec.ofNat 8 listenCount]

/-- The publisher state's code (R191). -/
def PublisherStage.code : PublisherStage → Byte
  | .idle => 0
  | .batching _ => 1
  | .notifying _ => 2
  | .switching _ _ => 3

/-- The chain state's code (R191). -/
def ChainState.code : ChainState → Byte
  | .stopped => 0
  | .running => 1

/-- The rate code (R190). -/
def Rate.code : Rate → Byte
  | .r48000 => 0
  | .r44100 => 1

/-- The publishing mode's code (R190). -/
def PublishingMode.code : PublishingMode → Byte
  | .auto => 0
  | .manual => 1

/-- The READ_STATUS result (R68, R191). -/
def State.statusResult (s : State) : List Byte :=
  [s.chain.state.code, s.chain.rate.code]
  ++ fourBytes s.chain.counter
  ++ [s.publisher.epoch, s.publisher.stage.code, s.publisher.mode.code, s.publisher.window,
    BitVec.ofNat 8 s.leaseCount, BitVec.ofNat 8 s.engine.queue.length,
    BitVec.ofNat 8 s.attention.items]

/-- A frame: its bytes and their CRC-8 (R177). -/
def withCrc (bs : List Byte) : List Byte := bs ++ [crc8 bs]

/-- An answer frame: status, tag, command, the result bytes when the status carries any, CRC-8 (R177, R191). -/
def answerFrame (st : Status) (r : HostRequest) (result : List Byte) : List Byte :=
  withCrc ([st.code.zeroExtend 8, r.tag, r.command] ++ (if st.carriesResult then result else []))

/-- The NONE frame (R178). -/
def noneFrame : List Byte := [0, 0, 0, 0]

end Sys2Proof.Machine
end

