-- ==== Sys2Proof/Machine/Operands.lean ====
section
/-! DEFINITION. Reading operands: the parameters of host requests, the payloads of response words, and
the bits of slots. Each parser answers none for a request that fails the form step (R46). -/

namespace Sys2Proof.Machine

/-! ## Parameters of host requests (R190) -/

/-- A position byte, 0 to 15. -/
def readPosition (b : Byte) : Option Position := if h : b.toNat < 16 then some ⟨b.toNat, h⟩ else none

/-- A position byte, 1 to 15 (READ_MEMBER and SET_EXPECTED). -/
def readMemberPosition (b : Byte) : Option Position := if b = 0 then none else readPosition b

/-- The two bytes of a handle. -/
def readHandle (i g : Byte) : Option Handle :=
  if h : i.toNat < 128 then
    if g.toNat < 16 then some ⟨⟨i.toNat, h⟩, g.truncate 4⟩ else none
  else none

/-- A stream byte, 1 to 255. -/
def readStream (b : Byte) : Option Stream := if b = 0 then none else some b

/-- A direction byte. -/
def readDirection (b : Byte) : Option Direction :=
  if b = 0 then some .down else if b = 1 then some .up else none

/-- A width code byte. -/
def readWidth (b : Byte) : Option Width := Width.ofCode b.toNat

/-- A count byte, 1 to 8. -/
def readCount (b : Byte) : Option Nat := if 1 ≤ b.toNat ∧ b.toNat ≤ 8 then some b.toNat else none

/-- A rights byte: LISTEN_OPEN, SHAPE_OPEN. -/
def readRights (b : Byte) : Option (Bool × Bool) :=
  if b.toNat < 4 then some (b.getLsbD 0, b.getLsbD 1) else none

/-- Two term bytes, 0 to 1023. -/
def readTerm (hi lo : Byte) : Option Term :=
  if (hi ++ lo).toNat < 1024 then some ((hi ++ lo).truncate 10) else none

/-- The term bytes of a RENEW: a term, or FFFFh for "keep" (the inner none). -/
def readNewTerm (hi lo : Byte) : Option (Option Term) :=
  if hi ++ lo = (0xFFFF : BitVec 16) then some none else (readTerm hi lo).map some

/-- A local base byte: a channel, or FFh for "none" (the inner none). -/
def readBase (b : Byte) : Option (Option Channel) :=
  if b = 0xFF then some none
  else if h : b.toNat < 32 then some (some ⟨b.toNat, h⟩) else none

/-- A clear-marks flag byte. -/
def readFlag (b : Byte) : Option Bool := if b = 0 then some false else if b = 1 then some true else none

/-- What a CREATE asks for, from the host (R53) or from a member (R54). -/
structure CreateFields where
  stream     : Stream
  source     : Position
  direction  : Direction
  width      : Width
  count      : Nat
  listenOpen : Bool
  shapeOpen  : Bool
  term       : Term
  listeners  : Listeners
  base       : Option Channel
deriving DecidableEq, Repr

/-- The parameters of a host CREATE. -/
def readCreate : List Byte → Option CreateFields
  | [st, src, dir, w, n, r, t1, t0, m1, m0, b] => do
    let stream ← readStream st
    let source ← readPosition src
    let direction ← readDirection dir
    let width ← readWidth w
    let count ← readCount n
    let rights ← readRights r
    let term ← readTerm t1 t0
    let base ← readBase b
    some { stream, source, direction, width, count, listenOpen := rights.1, shapeOpen := rights.2, term,
           listeners := m1 ++ m0, base }
  | _ => none

/-- The parameters of a host SHAPE. -/
def readShape : List Byte → Option (Handle × Width × Nat)
  | [i, g, w, n] => do
    let h ← readHandle i g
    let width ← readWidth w
    let count ← readCount n
    some (h, width, count)
  | _ => none

/-- The parameters of ADD_LISTENER and DROP_LISTENER. -/
def readHandlePosition : List Byte → Option (Handle × Position)
  | [i, g, p] => do
    let h ← readHandle i g
    let pos ← readPosition p
    some (h, pos)
  | _ => none

/-- The parameters of a host RETIRE. -/
def readHandleOnly : List Byte → Option Handle
  | [i, g] => readHandle i g
  | _ => none

/-- The parameters of a host RENEW; the term is absent for "keep". -/
def readRenew : List Byte → Option (Handle × Option Term)
  | [i, g, t1, t0] => do
    let h ← readHandle i g
    let t ← readNewTerm t1 t0
    some (h, t)
  | _ => none

/-- The parameters of SET_RIGHTS. -/
def readSetRights : List Byte → Option (Handle × Bool × Bool)
  | [i, g, r] => do
    let h ← readHandle i g
    let rights ← readRights r
    some (h, rights.1, rights.2)
  | _ => none

/-- The parameters of BIND_LOCAL; the base is absent for "none". -/
def readBindLocal : List Byte → Option (Handle × Option Channel)
  | [i, g, b] => do
    let h ← readHandle i g
    let base ← readBase b
    some (h, base)
  | _ => none

/-- The parameters of QUERY. -/
def readQuery : List Byte → Option (Handle × Bool)
  | [i, g, f] => do
    let h ← readHandle i g
    let clear ← readFlag f
    some (h, clear)
  | _ => none

/-- The parameter of a host RESOLVE. -/
def readResolve : List Byte → Option Stream
  | [st] => readStream st
  | _ => none

/-- A request with no parameters (REPACK, PUBLISH, CHAIN_STOP, FETCH_ATTENTION, READ_STATUS). -/
def readNothing : List Byte → Option Unit
  | [] => some ()
  | _ => none

/-- The parameters of SET_PUBLISHING. -/
def readSetPublishing : List Byte → Option (PublishingMode × Byte)
  | [m, w] => if m = 0 then some (.auto, w) else if m = 1 then some (.manual, w) else none
  | _ => none

/-- The parameter of READ_MEMBER. -/
def readReadMember : List Byte → Option Position
  | [p] => readMemberPosition p
  | _ => none

/-- The parameters of SET_EXPECTED; with presence 0 vendor and product are not read. -/
def readSetExpected : List Byte → Option (Position × Option Expected)
  | [p, f, v1, v0, pr] => do
    let pos ← readMemberPosition p
    let present ← readFlag f
    some (pos, if present then some ⟨v1 ++ v0, pr⟩ else none)
  | _ => none

/-- The parameter of SET_ADMISSION. -/
def readSetAdmission : List Byte → Option AdmissionMode
  | [m] => if m = 0 then some .openMode else if m = 1 then some .listed else if m = 2 then some .closed else none
  | _ => none

/-- The parameters of CHAIN_START: rate, miss limit, switch lead. -/
def readChainStart : List Byte → Option (Rate × Nat × Nat)
  | [r, m, l] =>
    if 2 ≤ m.toNat ∧ m.toNat ≤ 15 ∧ 2 ≤ l.toNat ∧ l.toNat ≤ 64 then
      if r = 0 then some (.r48000, m.toNat, l.toNat)
      else if r = 1 then some (.r44100, m.toNat, l.toNat)
      else none
    else none
  | _ => none

/-! ## Payloads of member requests (R188) -/

/-- A position field. -/
def positionOf (b : BitVec 4) : Position := b.toFin

/-- The operation code of a request payload. -/
def QueueEntry.operation (e : QueueEntry) : BitVec 3 := fieldAt e.payload 0 3

/-- The handle a request payload carries in bits 3 to 13. -/
def QueueEntry.handle (e : QueueEntry) : Handle :=
  ⟨(fieldAt e.payload 3 7).toFin, fieldAt e.payload 10 4⟩

/-- A count field: the code plus one. -/
def countOf (b : BitVec 3) : Nat := b.toNat + 1

/-- The fields of a member CREATE. The source is the sender; there is no mask and no base (R54). -/
def QueueEntry.create (e : QueueEntry) : Option CreateFields := do
  let stream ← readStream (fieldAt e.payload 3 8)
  let width ← Width.ofCode (fieldAt e.payload 12 3).toNat
  some { stream, source := e.position
         direction := if bitAt e.payload 11 then .up else .down
         width, count := countOf (fieldAt e.payload 15 3)
         listenOpen := bitAt e.payload 18, shapeOpen := bitAt e.payload 19
         term := fieldAt e.payload 20 10, listeners := 0, base := none }

/-- The fields of a member SHAPE behind the handle. -/
def QueueEntry.shape (e : QueueEntry) : Option (Width × Nat) := do
  let width ← Width.ofCode (fieldAt e.payload 14 3).toNat
  some (width, countOf (fieldAt e.payload 17 3))

/-- The stream of a member RESOLVE. -/
def QueueEntry.stream (e : QueueEntry) : Option Stream := readStream (fieldAt e.payload 3 8)

/-! ## The response word (R188) -/

/-- The presence bit reads 1: some position drove the response part. -/
def wordPresent (w : ChainWord) : Bool := bitAt w 0

/-- The ACK flag. -/
def wordAck (w : ChainWord) : Bool := bitAt w 1

/-- The request-present flag. -/
def wordRequest (w : ChainWord) : Bool := bitAt w 2

/-- The JOIN flag. -/
def wordJoin (w : ChainWord) : Bool := bitAt w 3

/-- The position echo. -/
def wordEcho (w : ChainWord) : Position := positionOf (fieldAt w 4 4)

/-- The member's epoch. -/
def wordEpoch (w : ChainWord) : Epoch := fieldAt w 8 8

/-- The payload. -/
def wordPayload (w : ChainWord) : BitVec 40 := fieldAt w 16 40

/-- The word is present and its CRC is the one its other fields give (R146). -/
def wordSound (w : ChainWord) : Bool :=
  wordPresent w && (fieldAt w 56 8 == crc8 (bodyBytes (fieldAt w 0 56)))

/-- The identity that a JOIN carries. -/
def joinIdentity (w : ChainWord) : Identity :=
  let p := wordPayload w
  { vendor := fieldAt p 0 16, product := fieldAt p 16 8, revision := fieldAt p 24 8
    sourceLimit := fieldAt p 32 4, listenLimit := fieldAt p 36 4 }

/-! ## Slots (R24) -/

/-- The ones among the first n bits of a run of bits are even in number. -/
def evenOnes {m : Nat} (bits : BitVec m) (n : Nat) : Bool :=
  !((List.range n).foldl (fun p k => xor p (bitAt bits k)) false)

/-- The bits of an UP region from slot k of a configuration of width w at offset o on, first bit most
significant; the slot is the first w + 2 of them (R24). -/
def slotFromRegion (region : BitVec 440) (o : Nat) (w : Width) (k : Nat) : BitVec 34 :=
  (region <<< (o + k * (w.bits + 2))).extractLsb' 406 34

/-- The fill bit of a slot of width w. -/
def slotFill (w : Width) (bits : BitVec 34) : Bool := bitAt bits w.bits

/-- The parity over data, fill and parity bit is good (R150). -/
def slotParityGood (w : Width) (bits : BitVec 34) : Bool := evenOnes bits (w.bits + 2)

/-- The top w bits of a 32-bit word, the rest zero. -/
def topBits (w : Width) (word : BitVec 32) : BitVec 32 :=
  (word >>> (32 - w.bits)) <<< (32 - w.bits)

/-- The data of a received slot in the top w bits of a channel word (R160). -/
def slotData (w : Width) (bits : BitVec 34) : BitVec 32 := topBits w (fieldAt bits 0 32)

/-- The bits of a slot the head sends, right-aligned: the top w bits of the word, the fill bit, and the
parity bit that makes the count of ones even (R24, R159). -/
def slotBits (w : Width) (word : BitVec 32) (fill : Bool) : BitVec 440 :=
  let parity := xor (!(evenOnes word w.bits)) fill
  ((word >>> (32 - w.bits)).zeroExtend 440 <<< 2) ||| ((flagBit fill).zeroExtend 440 <<< 1)
    ||| (flagBit parity).zeroExtend 440

end Sys2Proof.Machine
end

