-- ==== Sys2Proof/Machine/Placement.lean ====
section
/-! DEFINITION. The Placement Unit: spans, claims, the planning map, first-fit, the in-place rule and
the plan of a repack. -/

namespace Sys2Proof.Machine

/-- A run of bus bits on a run of hops: hops `firstHop` to `endHop - 1`, bits [offset, offset + cost). -/
structure Run where
  firstHop : Nat
  endHop   : Nat
  offset   : Nat
  cost     : Nat
deriving DecidableEq, Repr

/-- The highest listener of a set (R25). -/
def highestListener (l : Listeners) : Nat :=
  (List.range 16).foldl (fun a p => if l.getLsbD p then p else a) 0

/-- The lowest listener of a set (R25). -/
def lowestListener (l : Listeners) : Nat :=
  ((List.range 16).find? fun p => l.getLsbD p).getD 0

/-- The span of a listener set, as its first hop and the hop after its last (R25): DOWN hops s to
L - 1, UP hops l to s - 1. -/
def spanOf (d : Direction) (source : Position) (l : Listeners) : Nat × Nat :=
  match d with
  | .down => (source.val, highestListener l)
  | .up => (lowestListener l, source.val)

/-- The run of a configuration at an offset (R24, R25). -/
def Configuration.runAt (c : Configuration) (d : Direction) (source : Position) (o : Nat) : Run :=
  let sp := spanOf d source c.listeners
  ⟨sp.1, sp.2, o, c.cost⟩

/-- The run of a placed configuration (R24). -/
def Configuration.run? (c : Configuration) (d : Direction) (source : Position) : Option Run :=
  if c.listeners = 0 then none else c.placement.map fun o => c.runAt d source o

/-- Two runs share a bit on some hop. -/
def Run.meets (a b : Run) : Bool :=
  decide (max a.firstHop b.firstHop < min a.endHop b.endHop)
    && decide (max a.offset b.offset < min (a.offset + a.cost) (b.offset + b.cost))

/-- The configurations of a lease that claim bits: the active one unless there is a sealed change, the
sealed one, and the staged one (R28). -/
def Lease.claiming (l : Lease) : List Configuration :=
  (if l.sealed.isNone then [l.active] else []) ++ (l.sealedConfig.toList ++ l.staged.toList)

/-- The claims of a lease (R28). -/
def Lease.claims (l : Lease) : List Run :=
  l.claiming.filterMap fun c => c.run? l.direction l.source

/-- The claims, in one direction, of every lease but one (R28). -/
def State.otherClaims (s : State) (i : LeaseIndex) (d : Direction) : List Run :=
  allLeases.flatMap fun j =>
    if j = i then []
    else match s.lease? j with
      | some l => if l.direction = d then l.claims else []
      | none => []

/-- The planning map: the claimed runs of one direction's region on one hop, each with its lease (R27). -/
def State.planningMap (s : State) (d : Direction) (hop : Nat) : List (LeaseIndex × Run) :=
  allLeases.flatMap fun i =>
    match s.lease? i with
    | some l =>
      if l.direction = d then
        (l.claims.filter fun r => decide (r.firstHop ≤ hop) && decide (hop < r.endHop)).map fun r => (i, r)
      else []
    | none => []

/-- The run lies within the region and meets none of the claims (R32). -/
def fitsAmong (claims : List Run) (r : Run) : Bool :=
  decide (r.offset + r.cost ≤ Config.regionBits) && claims.all fun q => !r.meets q

/-- First-fit: the lowest offset at which the configuration fits (R32). -/
def firstFit (claims : List Run) (d : Direction) (source : Position) (c : Configuration) : Option Nat :=
  (List.range Config.regionBits).find? fun o => fitsAmong claims (c.runAt d source o)

/-- The in-place rule: the offset tried first is kept when it fits, else first-fit (R33). -/
def placeFrom (claims : List Run) (d : Direction) (source : Position) (c : Configuration)
    (tried : Option Nat) : Option Nat :=
  match tried with
  | some o => if fitsAmong claims (c.runAt d source o) then some o else firstFit claims d source c
  | none => firstFit claims d source c

/-- The configuration with the placement the Placement Unit gives it for the lease at an index; with an
empty listener set it needs none and the unit is not consulted. Absent is NO_ROOM (R31). -/
def State.placeFor (s : State) (i : LeaseIndex) (d : Direction) (source : Position) (c : Configuration)
    (tried : Option Nat) : Option Configuration :=
  if c.listeners = 0 then some { c with placement := none }
  else match placeFrom (s.otherClaims i d) d source c tried with
    | some o => some { c with placement := some o }
    | none => none

/-- The configuration with its listener set made smaller: it keeps the offset while listeners remain
(the shrink rule, R34), and has none when none remain. -/
def Configuration.shrunkTo (c : Configuration) (l : Listeners) : Configuration :=
  { c with listeners := l, placement := if l = 0 then none else c.placement }

/-! ## Repack -/

/-- A lease in a repack plan, and the offset it is given. -/
structure PlanItem where
  index     : LeaseIndex
  direction : Direction
  source    : Position
  config    : Configuration
deriving DecidableEq, Repr

/-- The number of hops an item spans. -/
def PlanItem.spanLength (p : PlanItem) : Nat :=
  let sp := spanOf p.direction p.source p.config.listeners
  sp.2 - sp.1

/-- The order of a plan: cost descending, then span length descending, then index ascending (R39). -/
def PlanItem.before (a b : PlanItem) : Bool :=
  decide (b.config.cost < a.config.cost)
    || (a.config.cost == b.config.cost
        && (decide (b.spanLength < a.spanLength)
            || (a.spanLength == b.spanLength && decide (a.index.val < b.index.val))))

/-- Puts an item into an ordered list. -/
def insertItem (p : PlanItem) : List PlanItem → List PlanItem
  | [] => [p]
  | q :: qs => if p.before q then p :: q :: qs else q :: insertItem p qs

/-- The items in the order of R39. -/
def orderItems (ps : List PlanItem) : List PlanItem := ps.foldr insertItem []

/-- Every non-FREE lease whose active configuration is placed (R39). -/
def State.planItems (s : State) : List PlanItem :=
  allLeases.filterMap fun i =>
    match s.lease? i with
    | some l => if l.active.placed then some ⟨i, l.direction, l.source, l.active⟩ else none
    | none => none

/-- The runs already planned in one direction. -/
def plannedRuns (done : List (PlanItem × Nat)) (d : Direction) : List Run :=
  done.filterMap fun q => if q.1.direction = d then some (q.1.config.runAt d q.1.source q.2) else none

/-- Places the items one after another by first-fit against the runs already planned; absent when one
finds no fit (R39). -/
def planFrom (done : List (PlanItem × Nat)) : List PlanItem → Option (List (PlanItem × Nat))
  | [] => some done
  | p :: ps =>
    match firstFit (plannedRuns done p.direction) p.direction p.source p.config with
    | some o => planFrom ((p, o) :: done) ps
    | none => none

/-- The plan of a repack (R39). -/
def State.repackPlan (s : State) : Option (List (PlanItem × Nat)) := planFrom [] (orderItems s.planItems)

/-- The offset a plan gives the lease at an index, when it differs from its active one (R40). -/
def movedTo (plan : List (PlanItem × Nat)) (i : LeaseIndex) : Option Nat :=
  match plan.find? fun q => q.1.index == i with
  | some q => if q.1.config.placement = some q.2 then none else some q.2
  | none => none

end Sys2Proof.Machine
end

