-- ==== Sys2Proof/Machine/LocalPort.lean ====
section
/-! DEFINITION. The Local Port: the local frame, the exchange of the banks at a frame start, and the
samples into and out of the head's slots. -/

namespace Sys2Proof.Machine

/-- Every bit of a channel arrived among the first n periods of a local frame (R155). -/
def channelArrived (n : Nat) (c : Channel) : Bool := decide (32 * (c.val + 1) ≤ n)

/-- The input bank after the exchange (R155). -/
def LocalPort.captured (p : LocalPort) : Vector InputWord 32 :=
  Vector.ofFn fun c => if channelArrived p.periods c then ⟨p.capture[c], true⟩ else ⟨0, false⟩

/-- The exchange of a frame start: the captured words become the input bank, the gathering bank becomes
the sending bank, and LFS marks bit period 0 of the new local frame (R154, R155, R156). -/
def LocalPort.exchange (p : LocalPort) : LocalPort :=
  { periods := 0
    capture := Vector.replicate 32 0
    input := p.captured
    sending := p.gathering
    gathering := Vector.replicate 32 0
    lfs := true
    lsdo := p.lsdo }

/-- The channel of a bit period (R154). -/
def periodChannel (n : Nat) : Channel := ⟨(n / 32) % 32, by omega⟩

/-- One LBCK period of a local frame (R154). -/
def LocalPort.period (p : LocalPort) (lsdi : Bool) : LocalPort :=
  if p.periods < Config.localPeriods then
    let c := periodChannel p.periods
    { p with
      periods := p.periods + 1
      capture := p.capture.set c.val ((p.capture[c] <<< 1) ||| (flagBit lsdi).zeroExtend 32)
      lfs := p.periods == 0
      lsdo := (p.sending[c]).getMsbD (p.periods % 32) }
  else { p with lfs := false, lsdo := false }

/-- The word and the completeness of a channel of the input bank; no channel lies beyond 31 (R155). -/
def LocalPort.inputAt (p : LocalPort) (c : Nat) : InputWord :=
  if h : c < 32 then p.input[c] else ⟨0, false⟩

/-- The sample and the fill of slot k of a source-0 lease (R159). -/
def LocalPort.slotFeed (p : LocalPort) (base : Option Channel) (k : Nat) : BitVec 32 × Bool :=
  match base with
  | some b =>
    let w := p.inputAt (b.val + k)
    if w.complete then (w.word, true) else (0, false)
  | none => (0, false)

/-- A slot in a region of 440 bits, offset 0 at the most significant bit (R24). -/
def slotInRegion (o : Nat) (w : Width) (k : Nat) (word : BitVec 32) (fill : Bool) : BitVec 440 :=
  slotBits w word fill <<< (Config.regionBits - (o + (k + 1) * (w.bits + 2)))

/-- The slots of one lease in the DOWN region of hop 0: those of a source-0 lease under its placed active
configuration, else none (R149, R159). -/
def State.leaseDownBits (s : State) (l : Lease) : BitVec 440 :=
  if l.direction = .down ∧ l.source = 0 then
    match l.active.placement with
    | none => 0
    | some o =>
      (List.range l.active.count).foldl (fun r k =>
        let f := s.localPort.slotFeed l.base k
        r ||| slotInRegion o l.active.width k f.1 f.2) 0
  else 0

/-- The DOWN region of hop 0 as the head drives it: zero wherever no slot lies (R149). -/
def State.downBits (s : State) : BitVec 440 :=
  allLeases.foldl (fun r i => match s.lease? i with
    | some l => r ||| s.leaseDownBits l
    | none => r) 0

/-- The word that a received slot gives its channel (R160). -/
def gatheredWord (w : Width) (bits : BitVec 34) : BitVec 32 :=
  if slotFill w bits && slotParityGood w bits then slotData w bits else 0

/-- A word is written to a channel of the gathering bank; no channel lies beyond 31 (R160). -/
def LocalPort.gather (p : LocalPort) (c : Nat) (word : BitVec 32) : LocalPort :=
  if h : c < 32 then { p with gathering := p.gathering.set c word h } else p

/-- Slot k of a lease writes its channel when the lease is bound (R160). -/
def State.gatherSlot (s : State) (l : Lease) (k : Nat) (bits : BitVec 34) : State :=
  match l.base with
  | some b => { s with localPort := s.localPort.gather (b.val + k) (gatheredWord l.active.width bits) }
  | none => s

end Sys2Proof.Machine
end

