-- ==== Sys2Proof/Machine/Publish.lean ====
section
/-! DEFINITION. The Layout Publisher: sealing, the notice table, the completion of the telling, and what
a set's application does to the entries. -/

namespace Sys2Proof.Machine

/-- Replaces the publisher's stage. -/
def State.setStage (s : State) (st : PublisherStage) : State :=
  { s with publisher := { s.publisher with stage := st } }

/-- The set in flight (R74). -/
def PublisherStage.set? : PublisherStage → Option ChangeSet
  | .notifying set => some set
  | .switching set _ => some set
  | _ => none

/-! ## The notice table -/

/-- The position is to be told of the delta: it is JOINED, and in the delta's lease it is the source, a
listener in the active configuration, or, for a CONFIG delta, a listener in the new one (R84). -/
def State.concerns (s : State) (d : Delta) (p : Position) : Bool :=
  s.joined p && (s.lease? d.handle.index).any fun l =>
    l.source == p || hasListener l.active.listeners p
      || (match d.kind with
          | .config c => hasListener c.listeners p
          | .retire _ => false)

/-- The notice table of a set, every notice OPEN (R84). -/
def State.noticesFor (s : State) (deltas : List Delta) : List Notice :=
  deltas.zipIdx.flatMap fun q =>
    (memberPositions.filter fun p => s.concerns q.1 p).map fun p => ⟨q.2, p, false⟩

/-- The position holds an OPEN notice. -/
def openAt (ns : List Notice) (p : Position) : Bool := ns.any fun n => n.position == p && !n.acked

/-- No notice is OPEN: the telling is complete (R89). -/
def allSettled (ns : List Notice) : Bool := ns.all fun n => n.acked

/-- The switch frame of a telling that completes now: n + L (R89). -/
def State.switchFrameNow (s : State) : FrameNumber :=
  s.chain.counter + BitVec.ofNat 32 (s.chain.lead.getD 0)

/-- The sealed deltas become the set in flight; with no notice the publisher enters SWITCHING at once (R82, R89). -/
def State.beginSet (s : State) (deltas : List Delta) : State :=
  let notices := s.noticesFor deltas
  let set : ChangeSet :=
    { number := s.publisher.epoch + 1, deltas, notices, rotation := memberPositions.find? (openAt notices) }
  s.setStage (if allSettled notices then .switching set s.switchFrameNow else .notifying set)

/-- Changes the notice table of the set in flight. When that leaves no notice OPEN while the publisher is
NOTIFYING, it enters SWITCHING and fixes the switch frame (R87, R88, R89). -/
def State.changeNotices (s : State) (f : List Notice → List Notice) : State :=
  match s.publisher.stage with
  | .notifying set =>
    let set' := { set with notices := f set.notices }
    s.setStage (if allSettled set'.notices then .switching set' s.switchFrameNow else .notifying set')
  | .switching set fr => s.setStage (.switching { set with notices := f set.notices } fr)
  | _ => s

/-- A notice is ACKED (R87). -/
def ackNotice (delta : Nat) (p : Position) (ns : List Notice) : List Notice :=
  ns.map fun n => if n.delta = delta ∧ n.position = p then { n with acked := true } else n

/-- A notice is due: the publisher is NOTIFYING and some notice is OPEN (R86). -/
def State.noticeDue (s : State) : Bool :=
  match s.publisher.stage with
  | .notifying set => !allSettled set.notices
  | _ => false

/-- The positions from `p` on in the order of the rotation: upward, wrapping from 15 to 1 (R86). -/
def rotationFrom (p : Position) : List Position :=
  memberPositions.filter (fun q => p ≤ q) ++ memberPositions.filter (fun q => q < p)

/-- The next position above one, wrapping from 15 to 1 (R86). -/
def nextPosition (p : Position) : Position := if p = 15 then 1 else p + 1

/-- The notice the publisher gives the scheduler (R86). -/
def ChangeSet.nextNotice (set : ChangeSet) : Option Notice :=
  match (rotationFrom (set.rotation.getD 1)).find? (openAt set.notices) with
  | some p =>
    let deltas := (set.notices.filter fun n => n.position == p && !n.acked).map Notice.delta
    deltas.min?.map fun k => ⟨k, p, false⟩
  | none => none

/-! ## Sealing -/

/-- What a sealing makes of a lease, and the kind of its delta; absent when nothing of it is staged (R19, R83). -/
def Lease.sealing (l : Lease) : Option (Lease × DeltaKind) :=
  match l.mark with
  | some ⟨cause, .staged⟩ =>
    some ({ l with sealed := some .retirement, staged := none, mark := some ⟨cause, .sealed⟩ }, .retire cause)
  | some ⟨_, .sealed⟩ => none
  | none => match l.staged with
    | some c => some ({ l with sealed := some (.config c), staged := none }, .config c)
    | none => none

/-- The deltas of a sealing, in ascending order of lease index (R83). -/
def State.stagedDeltas (s : State) : List Delta :=
  allLeases.filterMap fun i => (s.lease? i).bind fun l => l.sealing.map fun q => ⟨s.handleOf i, q.2⟩

/-- A sealing acts on one entry (R19). -/
def sealEntry (e : Entry) : EntryEvent :=
  match e.lease with
  | some l => match l.sealing with
    | some q => e.put q.1
    | none => .unchanged e
  | none => .unchanged e

/-- The sealing of the staged changes (R82). -/
def State.sealStaged (s : State) : State :=
  (s.onEveryEntry fun _ e => sealEntry e).beginSet s.stagedDeltas

/-- The active configuration at a planned offset (R40). -/
def Lease.movedConfig (l : Lease) (o : Nat) : Configuration := { l.active with placement := some o }

/-- A repack acts on one entry: a moved lease receives a sealed configuration (R40). -/
def repackEntry (plan : List (PlanItem × Nat)) (i : LeaseIndex) (e : Entry) : EntryEvent :=
  match e.lease, movedTo plan i with
  | some l, some o => e.put { l with sealed := some (.config (l.movedConfig o)) }
  | _, _ => .unchanged e

/-- The deltas of a repack, in ascending index order (R40). -/
def State.repackDeltas (s : State) (plan : List (PlanItem × Nat)) : List Delta :=
  allLeases.filterMap fun i => match s.lease? i, movedTo plan i with
    | some l, some o => some ⟨s.handleOf i, .config (l.movedConfig o)⟩
    | _, _ => none

/-- The sealing of a repack whose plan moves at least one lease (R40, R97). -/
def State.sealRepack (s : State) (plan : List (PlanItem × Nat)) : State :=
  (s.onEveryEntry (repackEntry plan)).beginSet (s.repackDeltas plan)

/-! ## The end of a batch window -/

/-- The window ends: a set is sealed when something is staged, else the publisher returns to IDLE (R77). -/
def State.endWindow (s : State) : State :=
  if s.anyStaged then s.sealStaged else s.setStage .idle

/-! ## Application to the entries -/

/-- Whether a set holds a delta for an index. -/
def ChangeSet.namesIndex (set : ChangeSet) (i : LeaseIndex) : Bool := set.deltas.any fun d => d.handle.index == i

/-- The first event, then another on the entry it leaves. -/
def EntryEvent.andThen (ev : EntryEvent) (f : Entry → EntryEvent) : EntryEvent :=
  let ev' := f ev.entry
  ⟨ev'.entry, ev.raised ++ ev'.raised, ev.staged || ev'.staged⟩

/-- A delta is applied to its lease: a sealed configuration becomes active, a sealed retirement frees (R20). -/
def applyDelta (e : Entry) : EntryEvent :=
  match e.lease with
  | some l => match l.sealed with
    | some (.config c) => e.put { l with active := c, sealed := none }
    | some .retirement => e.free (l.mark.any fun m => m.cause.byHost)
    | none => .unchanged e
  | none => .unchanged e

/-- Settles a lease that is left with nothing placed: a staged retirement frees it, a staged unplaced
configuration of a LIVE lease becomes active (R20). -/
def settleEntry (e : Entry) : EntryEvent :=
  match e.lease with
  | some l => match l.mark with
    | some ⟨cause, .staged⟩ => if l.retiresAtOnce then e.free cause.byHost else .unchanged e
    | some ⟨_, .sealed⟩ => .unchanged e
    | none => match l.staged with
      | some c =>
        if l.active.placed = false ∧ c.placed = false then e.put { l with active := c, staged := none }
        else .unchanged e
      | none => .unchanged e
  | none => .unchanged e

/-- An application acts on one entry (R20). -/
def applyEntry (set : ChangeSet) (i : LeaseIndex) (e : Entry) : EntryEvent :=
  (if set.namesIndex i then applyDelta e else .unchanged e).andThen settleEntry

end Sys2Proof.Machine
end

