-- ==== Sys2Proof/Machine/Members.lean ====
section
/-! DEFINITION. The Member Table: admission, misses, the loss cascade and its cleanup, the release of
lost positions, and the intake of requests. -/

namespace Sys2Proof.Machine

/-- The position of a member record. -/
def positionAt (k : Fin 15) : Position := ⟨k.val + 1, by omega⟩

/-- The deliveries of a position leave the delivery list (R125, R143). -/
def withoutDelivery (ds : List Delivery) (gone : Position → Bool) : List Delivery :=
  ds.filter fun d => match d with
    | .answer p => !gone p
    | .assign p => !gone p

/-- The position's entries leave the delivery list. -/
def State.dropDelivery (s : State) (p : Position) : State :=
  { s with chain := { s.chain with delivery := withoutDelivery s.chain.delivery fun q => q == p } }

/-! ## Admission -/

/-- The admission mode and the expected identity admit the identity (R118). -/
def admits (mode : AdmissionMode) (expected : Option Expected) (d : Identity) : Bool :=
  match mode with
  | .openMode => true
  | .listed => expected.any fun x => x.vendor == d.vendor && x.product == d.product
  | .closed => false

/-- A valid JOIN is decided at its target (R118, R119). -/
def State.takeJoin (s : State) (t : Position) (d : Identity) : State :=
  let m := s.member t
  if admits s.members.admission m.expected d then
    let u := s.setMember t { m with state := .admitting, identity := some d, misses := 0 }
    { u with chain := { u.chain with delivery := u.chain.delivery ++ [.assign t] } }
  else (s.setMember t { m with identity := some d }).raiseMember t Reason.refused

/-- An ASSIGN is acknowledged: the position becomes JOINED (R120). -/
def State.joinMember (s : State) (p : Position) : State :=
  ((s.setMember p { s.member p with state := .joined, misses := 0 }).dropDelivery p).raiseMember p Reason.joined

/-- An admission fails: the position becomes VACANT (R121). -/
def State.failAdmission (s : State) (p : Position) : State :=
  ((s.setMember p { s.member p with state := .vacant, identity := none, misses := 0 }).dropDelivery p).raiseMember p
    Reason.admitFailed

/-! ## Release of lost positions -/

/-- A LOST position that no lease names, below a VACANT position or at 15, becomes VACANT (R129, R130). -/
def State.releaseOne (s : State) (p : Position) : State :=
  let m := s.member p
  if m.state = .lost ∧ s.named p = false ∧ (p = 15 ∨ (s.member (p + 1)).state = .vacant) then
    (s.setMember p { m with state := .vacant, identity := none, misses := 0 }).raiseMember p Reason.vacated
  else s

/-- The release check, from 15 downward (R129). -/
def State.releaseLost (s : State) : State := memberPositions.reverse.foldl State.releaseOne s

/-! ## Loss -/

/-- A loss at k takes the position out of JOINED or ADMITTING (R124). -/
def State.swept (s : State) (k p : Position) : Bool :=
  decide (k ≤ p) && ((s.member p).state == .joined || (s.member p).state == .admitting)

/-- The record of a swept position (R124, R125). -/
def Member.sweep (m : Member) : Member :=
  match m.state with
  | .joined => { m with state := .lost, answer := none }
  | .admitting => { m with state := .vacant, identity := none, misses := 0, answer := none }
  | _ => m

/-- The reason that a sweep raises on the position's item (R125). -/
def Member.sweepReason (m : Member) : Reasons :=
  match m.state with
  | .joined => Reason.lost
  | .admitting => Reason.admitFailed
  | _ => 0

/-- The member records after the sweep of a loss at k (R124). -/
def State.sweptRecords (s : State) (k : Position) : Vector Member 15 :=
  Vector.ofFn fun j =>
    if s.swept k (positionAt j) then s.members.records[j].sweep else s.members.records[j]

/-- The member items after the sweep of a loss at k (R125). -/
def State.sweptItems (s : State) (k : Position) : Vector Reasons 15 :=
  Vector.ofFn fun j =>
    if s.swept k (positionAt j) then s.attention.members[j] ||| s.members.records[j].sweepReason
    else s.attention.members[j]

/-- The cascade of a loss at k: states, queue entries, pending answers, deliveries, notices and the
attention of R125 (R124, R125, R88). -/
def State.cascade (s : State) (k : Position) : State :=
  let linked := if k = 1 then s.attention.device ||| Reason.linkLost else s.attention.device
  let t : State := { s with
    members := { s.members with records := s.sweptRecords k }
    engine := { s.engine with queue := s.engine.queue.filter fun e => !s.swept k e.position }
    chain := { s.chain with delivery := withoutDelivery s.chain.delivery (s.swept k) }
    attention := { s.attention with device := linked, members := s.sweptItems k } }
  t.changeNotices fun ns => ns.filter fun n => n.acked || !s.swept k n.position

/-- The position is LOST. -/
def State.isLost (s : State) (p : Position) : Bool := (s.member p).state == .lost

/-- A lease whose source is LOST is orphaned (R126). -/
def orphanEntry (lost : Position → Bool) (e : Entry) : EntryEvent :=
  match e.lease with
  | some l =>
    if lost l.source then
      match l.mark with
      | none => (retireLive e l .orphaned).raising Reason.orphaned
      | some ⟨.expired, .staged⟩ =>
        (e.put { l with mark := some ⟨.orphaned, .staged⟩ }).raising Reason.orphaned
      | some _ => .unchanged e
    else .unchanged e
  | none => .unchanged e

/-- The set without the LOST positions (R127). -/
def withoutLost (lost : Position → Bool) (l : Listeners) : Listeners :=
  memberPositions.foldl (fun m p => if lost p then withoutListener m p else m) l

/-- A lease whose latest configuration names a LOST listener is staged without it (R127). -/
def cleanEntry (lost : Position → Bool) (e : Entry) : EntryEvent :=
  match e.lease with
  | some l =>
    if l.state ≠ .going ∧ (memberPositions.any fun p => lost p && hasListener l.latest.listeners p) then
      e.stage { l with staged := some (l.latest.shrunkTo (withoutLost lost l.latest.listeners)) }
    else .unchanged e
  | none => .unchanged e

/-- The cleanup of a loss on one entry: orphaning, then listener removal (R126, R127). -/
def cleanupEntry (lost : Position → Bool) (e : Entry) : EntryEvent :=
  (orphanEntry lost e).andThen (cleanEntry lost)

/-- The loss of the JOINED member at k (R123). -/
def State.loseMember (s : State) (k : Position) : State :=
  let t := s.cascade k
  (t.onEveryEntry fun _ e => cleanupEntry t.isLost e).releaseLost

/-! ## Misses -/

/-- A miss count is at the miss limit (R122). -/
def State.atLimit (s : State) (n : Nat) : Bool := s.members.missLimit.any fun m => decide (m ≤ n)

/-- The miss count of the position is set to 0 (R122). -/
def State.clearMisses (s : State) (p : Position) : State := s.setMember p { s.member p with misses := 0 }

/-- A miss is counted; at the miss limit a JOINED member is lost and an admission fails (R121, R122, R123). -/
def State.countMiss (s : State) (p : Position) : State :=
  let m := s.member p
  let t := s.setMember p { m with misses := m.misses + 1 }
  if s.atLimit (m.misses + 1) then
    match m.state with
    | .joined => t.loseMember p
    | .admitting => t.failAdmission p
    | _ => t
  else t

/-! ## Intake of member requests -/

/-- OVERRUN is set on the queue entry of the position (R132). -/
def overrunQueue (q : List QueueEntry) (p : Position) : List QueueEntry :=
  q.map fun e => if e.position = p then { e with overrun := true } else e

/-- A request in a valid response word enters the intake (R131, R132). -/
def State.intake (s : State) (p : Position) (payload : BitVec 40) : State :=
  if s.joined p then
    if s.queued p then { s with engine := { s.engine with queue := overrunQueue s.engine.queue p } }
    else match (s.member p).answer with
      | some a => s.setMember p { s.member p with answer := some { a with overrun := true } }
      | none => { s with engine := { s.engine with queue := s.engine.queue ++ [⟨p, payload, false⟩] } }
  else s

end Sys2Proof.Machine
end

