-- ==== Sys2Proof/Machine/Frame.lean ====
section
/-! DEFINITION. The Chain Engine: the frame and its events. What is due in a frame and has not been taken
is taken before what the spec places after it (A3). -/

namespace Sys2Proof.Machine

/-- A frame of a running chain is in progress (R133, R138). -/
def State.inFrame (s : State) : Bool := s.chain.state == .running && s.chain.frame.started

/-- Replaces the progress of the frame. -/
def State.setFrame (s : State) (f : FrameProgress) : State := { s with chain := { s.chain with frame := f } }

/-! ## Application of the set in flight (R92) -/

/-- The frame in progress is the switch frame of the set in flight. -/
def State.applicationDue (s : State) : Bool :=
  s.inFrame && (match s.publisher.stage with
    | .switching _ f => f == s.chain.counter
    | _ => false)

/-- The publisher's state after an application (R93). -/
def State.nextStage (s : State) : PublisherStage :=
  if s.publisher.mode = .auto ∧ s.anyStaged then
    .batching (sealFrameFrom s.chain.counter s.publisher.window)
  else .idle

/-- The application of a set (R92). -/
def State.applySet (s : State) (set : ChangeSet) : State :=
  let t := s.onEveryEntry (applyEntry set)
  let u : State := { t with publisher := { t.publisher with epoch := t.publisher.epoch + 1, stage := t.nextStage } }
  u.releaseLost.raiseDevice Reason.setApplied

/-- Takes the application when it is due. -/
def State.takeApplication (s : State) : State :=
  if s.applicationDue then
    match s.publisher.stage.set? with
    | some set => s.applySet set
    | none => s
  else s

/-! ## Expiry (R102) -/

/-- The expiry event on an entry in frame n: a LIVE lease whose expiry frame is n expires (R102). -/
def expireEntry (n : FrameNumber) (e : Entry) : EntryEvent :=
  match e.lease with
  | some l =>
    if l.expiry = some n ∧ l.mark = none then (retireLive e l .expired).raising Reason.expired
    else .unchanged e
  | none => .unchanged e

/-- Takes the expiry of one lease when it is due. -/
def State.takeExpiry (s : State) (i : LeaseIndex) : State :=
  if s.inFrame then s.onEntry i (expireEntry s.chain.counter s.leases[i]) else s

/-- Takes every expiry that is due. -/
def State.takeExpiries (s : State) : State :=
  if s.inFrame then s.onEveryEntry fun _ e => expireEntry s.chain.counter e else s

/-! ## The end of a batch window (R77) -/

/-- The frame in progress is the seal frame. -/
def State.windowDue (s : State) : Bool :=
  s.inFrame && (match s.publisher.stage with
    | .batching f => f == s.chain.counter
    | _ => false)

/-- Takes the end of the batch window when it is due. -/
def State.takeWindowEnd (s : State) : State := if s.windowDue then s.endWindow else s

/-! ## The choice of the control message (R141, R142) -/

/-- The frame's message is chosen: its kind and its bits on hop 0. -/
def State.send (s : State) (m : Message) (w : ChainWord) : State :=
  s.setFrame { s.chain.frame with control := some ⟨m, w⟩ }

/-- The lowest position that is not JOINED counting up from 1: one above the highest JOINED position;
absent when every position is JOINED (R114, R116). -/
def State.joinTarget (s : State) : Option Position :=
  match memberPositions.reverse.find? s.joined with
  | none => some 1
  | some p => if p = 15 then none else some (p + 1)

/-- The interval since the last open call has passed (R116). -/
def State.openCallRipe (s : State) : Bool :=
  match s.members.lastOpenCall with
  | none => true
  | some m => decide (Config.openCallInterval ≤ (s.chain.counter - m).toNat)

/-- The target of the open call that is due, if one is (R116). -/
def State.openCallDue (s : State) : Option Position :=
  if s.chain.state = .running ∧ s.members.admission ≠ .closed
      ∧ (memberPositions.all fun p => (s.member p).state != .admitting && (s.member p).state != .lost)
      ∧ s.openCallRipe then s.joinTarget
  else none

/-- The position that the next POLL goes to (R145). -/
def State.pollTarget (s : State) : Option Position :=
  let first := memberPositions.find? s.joined
  match s.chain.pollMark with
  | none => first
  | some k => match memberPositions.find? fun p => decide (k < p) && s.joined p with
    | some p => some p
    | none => first

/-- The role a notice carries for a member (R85). -/
def roleOf (d : Delta) (l : Lease) (p : Position) : Role :=
  match d.kind with
  | .retire _ => .none
  | .config c => if l.source = p then .source else if hasListener c.listeners p then .listener else .none

/-- The width, count and offset a notice carries: the new configuration's offset (R37), 511 for a retirement, a
configuration without placement, and a listener that the change removes (R85, as R187 refers this field to it; A15). -/
def shapeOf (d : Delta) (l : Lease) (p : Position) : Width × Nat × Option Nat :=
  match d.kind with
  | .retire _ => (l.active.width, l.active.count, none)
  | .config c => (c.width, c.count, if roleOf d l p = .none then none else c.placement)

/-- The bits of the NOTICE of one delta to one member (R85, R187). -/
def State.noticeBits (s : State) (set : ChangeSet) (n : Notice) : ChainWord :=
  match set.deltas[n.delta]? with
  | some d => match s.lease? d.handle.index with
    | some l =>
      let sh := shapeOf d l n.position
      noticeWord s.publisher.epoch n.position d.handle l.stream (roleOf d l n.position) l.direction sh.1 sh.2.1 sh.2.2
    | none => noticeWord s.publisher.epoch n.position d.handle 0 .none .down .w8 1 none
  | none => noticeWord s.publisher.epoch n.position ⟨0, 0⟩ 0 .none .down .w8 1 none

/-- Sends a NOTICE: the rotation position moves on and the alternation mark becomes NOTICE (R86, R140). -/
def State.sendNotice (s : State) (set : ChangeSet) (n : Notice) : State :=
  let t := s.setStage (.notifying { set with rotation := some (nextPosition n.position) })
  let u : State := { t with chain := { t.chain with alternation := some .notice } }
  u.send (.addressed (.notice n.delta) n.position) (s.noticeBits set n)

/-- The pending answer of a position, as bits (R189). -/
def State.answerBits (s : State) (p : Position) : ChainWord :=
  match (s.member p).answer with
  | some a => answerWord s.publisher.epoch p a
  | none => answerWord s.publisher.epoch p ⟨0, .none, false, ⟨0, 0⟩, 0⟩

/-- Sends the head of the delivery list: an ANSWER takes the pending answer with it, an ASSIGN goes to the
tail; the alternation mark becomes ANSWER (R140, R143). -/
def State.sendDelivery (s : State) (d : Delivery) (rest : List Delivery) : State :=
  match d with
  | .answer p =>
    let t := s.setMember p { s.member p with answer := none }
    let u : State := { t with chain := { t.chain with delivery := rest, alternation := some .answer } }
    u.send (.addressed .answer p) (s.answerBits p)
  | .assign p =>
    let u : State := { s with chain := { s.chain with delivery := rest ++ [.assign p], alternation := some .answer } }
    u.send (.addressed .assign p) (assignWord s.publisher.epoch p s.chain.counter)

/-- Sends what is neither a delivery nor a notice: an open call, a poll, or IDLE (R142, lines 5 to 7). -/
def State.sendOther (s : State) : State :=
  match s.openCallDue with
  | some t =>
    let u : State := { s with members := { s.members with lastOpenCall := some s.chain.counter } }
    u.send (.openCall t) (openCallWord s.publisher.epoch t)
  | none => match s.pollTarget with
    | some p =>
      let u : State := { s with chain := { s.chain with pollMark := some p } }
      u.send (.addressed .poll p) (pollWord s.publisher.epoch p)
    | none => s.send .idle (idleWord s.publisher.epoch)

/-- The notice that is due, with its set (R86). -/
def State.dueNotice (s : State) : Option (ChangeSet × Notice) :=
  match s.publisher.stage with
  | .notifying set => set.nextNotice.map fun n => (set, n)
  | _ => none

/-- The choice among the delivery list, the notices and the rest (R142, lines 2 to 7). -/
def State.sendByPrecedence (s : State) : State :=
  match s.chain.delivery, s.dueNotice with
  | d :: rest, some (set, n) =>
    if s.chain.alternation = some .answer then s.sendNotice set n else s.sendDelivery d rest
  | d :: rest, none => s.sendDelivery d rest
  | [], some (set, n) => s.sendNotice set n
  | [], none => s.sendOther

/-- The choice of the control message (R142). -/
def State.chooseMessage (s : State) : State :=
  match s.publisher.stage with
  | .switching set f =>
    if laterThan f s.chain.counter then s.send .switch (switchWord s.publisher.epoch set.number f)
    else s.sendByPrecedence
  | _ => s.sendByPrecedence

/-- Takes the choice when the frame's message is not yet chosen. -/
def State.takeChoice (s : State) : State :=
  if s.inFrame && s.chain.frame.control.isNone then s.chooseMessage else s

/-- Takes every frame-start event that is due, in an order the spec allows (R138, R141; A3). -/
def State.finishFrameStart (s : State) : State :=
  s.takeApplication.takeExpiries.takeWindowEnd.takeChoice

/-! ## The response word (R146 to R148) -/

/-- The word answers an addressed message to p validly (R122, R147). -/
def State.validResponse (s : State) (p : Position) (w : ChainWord) : Bool :=
  wordSound w && wordEcho w == p && wordEpoch w == s.publisher.epoch && !wordJoin w

/-- The word is a JOIN at the target (R148). -/
def validJoin (t : Position) (w : ChainWord) : Bool := wordSound w && wordJoin w && wordEcho w == t

/-- The outcome of the response to an addressed message, after its request has gone to intake (R147). -/
def State.responseOutcome (s : State) (k : Addressed) (p : Position) (valid ack : Bool) : State :=
  match k with
  | .poll => if valid then s.clearMisses p else s.countMiss p
  | .answer => if valid then s.clearMisses p else s.countMiss p
  | .notice d =>
    if valid && ack then (s.clearMisses p).changeNotices (ackNotice d p) else s.countMiss p
  | .assign => if valid && ack then s.joinMember p else s.countMiss p

/-- The response word of the frame is taken whole (R146). -/
def State.takeWord (s : State) (w : ChainWord) : State :=
  let t := s.setFrame { s.chain.frame with responded := true }
  match s.chain.frame.control.map Control.message with
  | some (.openCall target) => if validJoin target w then t.takeJoin target (joinIdentity w) else t
  | some (.addressed k p) =>
    let valid := s.validResponse p w
    let u := if valid && wordRequest w then t.intake p (wordPayload w) else t
    u.responseOutcome k p valid (wordAck w)
  | _ => s

/-- The frame asked for a response word that has not been taken (R146). -/
def State.responseDue (s : State) : Bool :=
  s.inFrame && !s.chain.frame.responded
    && (match s.chain.frame.control.map Control.message with
        | some (.openCall _) => true
        | some (.addressed _ _) => true
        | _ => false)

/-- Takes the response word when the frame asked for one that has not been taken. -/
def State.takeResponse (s : State) (w : ChainWord) : State := if s.responseDue then s.takeWord w else s

/-! ## The order of the frame's parts (R136) -/

/-- The head drives the DOWN region of hop 0, once in a frame (R149). -/
def State.driveDown (s : State) : State :=
  if s.inFrame && s.chain.frame.downRegion.isNone then
    s.setFrame { s.chain.frame with downRegion := some s.downBits }
  else s

/-- The frame comes to its response part: what precedes it has been taken, the control message and the
DOWN region among it (R136; A3). -/
def State.reachResponse (s : State) : State := s.finishFrameStart.driveDown

/-- The frame comes to its UP region: a response word that the frame asked for and that has not been
taken was missing, its response part read as zeros (R136, R137, R146, R188; A3). -/
def State.reachUpRegion (s : State) : State := s.reachResponse.takeResponse 0

/-! ## The frame start -/

/-- The next frame of a running chain starts: the counter takes its number and the Local Port exchanges its
banks (R134, R138, R155, R156). -/
def State.openFrame (s : State) : State :=
  { s with
    chain := { s.chain with
      counter := if s.chain.frame.started then s.chain.counter + 1 else s.chain.counter
      frame := { FrameProgress.none with started := true } }
    localPort := s.localPort.exchange }

/-! ## Slots at the head -/

/-- A slot that arrives at the head acts on its lease (R12, R106, R150). -/
def slotEvent (e : Entry) (l : Lease) (n : FrameNumber) (bits : BitVec 34) : EntryEvent :=
  if slotFill l.active.width bits then
    if slotParityGood l.active.width bits then
      e.put { (l.renewed n l.term).getD l with heard := true }
    else e.put { l with parityFaults := if l.parityFaults = 255 then 255 else l.parityFaults + 1 }
  else .unchanged e

/-- The head reads slot k of the lease in this frame: an UP lease whose active configuration has listener 0
and that many slots, the slot not yet read (R150). -/
def State.readsSlot (s : State) (i : LeaseIndex) (l : Lease) (k : Fin 8) : Bool :=
  s.inFrame && l.direction == .up && hasListener l.active.listeners 0
    && decide (k.val < l.active.count) && !s.chain.frame.slotsRead.contains (i, k)

/-- The head reads slot k of a lease with the bits that arrive in it (R150, R160). -/
def State.takeSlot (s : State) (i : LeaseIndex) (l : Lease) (k : Fin 8) (bits : BitVec 34) : State :=
  let t := s.setFrame { s.chain.frame with slotsRead := (i, k) :: s.chain.frame.slotsRead }
  (t.gatherSlot l k.val bits).onEntry i (slotEvent s.leases[i] l s.chain.counter bits)

/-- The head reads a slot of the UP region of hop 0 at the offset of the lease's active configuration; a
lease without a placement has none (R24, R150, R151). -/
def State.readSlot (s : State) (i : LeaseIndex) (k : Fin 8) (region : BitVec 440) : State :=
  match s.lease? i with
  | some l => match l.active.placement with
    | some o =>
      if s.readsSlot i l k then s.takeSlot i l k (slotFromRegion region o l.active.width k.val) else s
    | none => s
  | none => s

/-! ## Loss and failed admission as commands -/

/-- The frame's message is addressed to p and its response word has not been taken. -/
def State.awaits (s : State) (p : Position) : Bool :=
  s.inFrame && !s.chain.frame.responded
    && (match s.chain.frame.control.map Control.message with
        | some (.addressed _ q) => q == p
        | _ => false)

/-- The frame's response is a miss that brings the position, which is in the given state, to the miss limit. -/
def State.missDue (s : State) (p : Position) (st : MemberState) : Bool :=
  s.awaits p && (s.member p).state == st && s.atLimit ((s.member p).misses + 1)

/-- The frame's response word is taken as a miss of p. -/
def State.takeMiss (s : State) (p : Position) : State :=
  (s.setFrame { s.chain.frame with responded := true }).countMiss p

/-! ## The events -/

/-- FRAME_START: the frame in progress ends, with what is still due in it, and the next one starts (R138; A3). -/
def execFrameStart (s : State) : Host.Outcome State Fault Refusal :=
  .next (if s.chain.state = .running then s.reachUpRegion.openFrame else s)

/-- EXPIRY of the lease in one entry (R102). -/
def execExpiry (i : LeaseIndex) (s : State) : Host.Outcome State Fault Refusal := .next (s.takeExpiry i)

/-- BATCH_WINDOW_END (R77). -/
def execBatchWindowEnd (s : State) : Host.Outcome State Fault Refusal := .next s.takeWindowEnd

/-- SET_APPLICATION (R92). -/
def execSetApplication (s : State) : Host.Outcome State Fault Refusal := .next s.takeApplication

/-- CONTROL_MESSAGE_CHOICE: an application that is due opens the frame before it (R92, R141). -/
def execControlMessageChoice (s : State) : Host.Outcome State Fault Refusal := .next s.takeApplication.takeChoice

/-- RESPONSE_WORD (R146). -/
def execResponseWord (w : ChainWord) (s : State) : Host.Outcome State Fault Refusal :=
  .next (s.reachResponse.takeResponse w)

/-- DOWN_REGION_DRIVE (R149). -/
def execDownRegionDrive (s : State) : Host.Outcome State Fault Refusal := .next s.reachResponse

/-- UP_SLOT_READ (R150). -/
def execUpSlotRead (i : LeaseIndex) (k : Fin 8) (region : BitVec 440) (s : State) : Host.Outcome State Fault Refusal :=
  .next (s.reachUpRegion.readSlot i k region)

/-- MEMBER_LOSS: the response to the message addressed to p is the miss that reaches the miss limit (R123; A7). -/
def execMemberLoss (p : Position) (s : State) : Host.Outcome State Fault Refusal :=
  .next (let t := s.reachResponse; if t.missDue p .joined then t.takeMiss p else t)

/-- ADMISSION_FAILURE: the response to the ASSIGN for p is the miss that reaches the miss limit (R121; A7). -/
def execAdmissionFailure (p : Position) (s : State) : Host.Outcome State Fault Refusal :=
  .next (let t := s.reachResponse; if t.missDue p .admitting then t.takeMiss p else t)

/-- LBCK_PERIOD: counted from the first frame start of a running chain on (R154). -/
def execLbckPeriod (lsdi : Bool) (s : State) : Host.Outcome State Fault Refusal :=
  .next (if s.inFrame then { s with localPort := s.localPort.period lsdi } else s)

end Sys2Proof.Machine
end

