-- ==== Sys2Proof/Machine/Flags.lean ====
section
/-! DEFINITION. The flags of the port status byte and the ATTN line. -/

namespace Sys2Proof.Machine

/-- SLOT_BUSY: the slot is waiting or answered (section 10.5). -/
def Slot.busy : Slot → Bool
  | .empty => false
  | _ => true

/-- ANSWER_READY: the slot is answered (section 10.5). -/
def Slot.ready : Slot → Bool
  | .answered _ _ => true
  | _ => false

/-- ATTN, and the ATTENTION flag: the attention set holds at least one item (R171). -/
def State.attn (s : State) : Bool := s.attention.items != 0

/-- CHAIN_RUNNING (section 10.5). -/
def State.isRunning (s : State) : Bool := s.chain.state == .running

/-- The port status byte (R192). -/
def State.statusByte (s : State) : Byte :=
  flagBit s.hostPort.slot.busy ++ flagBit s.hostPort.slot.ready ++ flagBit s.attn ++ flagBit s.isRunning
    ++ flagBit s.hostPort.checkError ++ flagBit s.hostPort.slotFull ++ (0 : BitVec 2)

end Sys2Proof.Machine
end

