-- ==== Sys2Proof/Machine/Requests.lean ====
section
/-! DEFINITION. The Request Engine: the taking of a request, the validation order, and what each request
on a lease does, once for its host and its member form. -/

namespace Sys2Proof.Machine

/-! ## The target and lease-state steps -/

/-- Steps 2 and 3 of the validation order: the handle names a non-FREE entry of its generation, and the
lease's state accepts the request (R47, R48). -/
def State.target (s : State) (h : Handle) (inRetiring inGoing : Bool) : Except Status Lease :=
  match s.lease? h.index with
  | none => .error .staleHandle
  | some l =>
    if s.leases[h.index].generation = h.generation then
      match l.state with
      | .live => .ok l
      | .retiring => if inRetiring then .ok l else .error .gone
      | .going => if inGoing then .ok l else .error .gone
    else .error .staleHandle

/-- The target step of a RESOLVE (R47). -/
def State.resolve (s : State) (n : Stream) : Except Status (LeaseIndex × Lease) :=
  match s.streamMap n with
  | none => .error .notFound
  | some i => match s.lease? i with
    | none => .error .notFound
    | some l => .ok (i, l)

/-! ## Checks of the meaning step (R50) -/

/-- All positions. -/
def allPositions : List Position := 0 :: memberPositions

/-- The position lies on the listeners' side of the source (R8). -/
def onSide (d : Direction) (source p : Position) : Bool :=
  match d with
  | .down => decide (source < p)
  | .up => decide (p < source)

/-- Every listener of the set satisfies the test. -/
def everyListener (l : Listeners) (ok : Position → Bool) : Bool :=
  allPositions.all fun p => !hasListener l p || ok p

/-- A lease of the kind can be bound to the local port (R157). -/
def bindable (d : Direction) (source : Position) (latest : Listeners) : Bool :=
  match d with
  | .down => source == 0
  | .up => hasListener latest 0

/-- The channels base to base + n − 1 lie within 0 to 31 and are free or reserved by the lease itself
(R50, fifth check; R61, R158). -/
def State.channelCheck (s : State) (mine : LeaseIndex → Bool) (base n : Nat) : Except Status Unit :=
  if 32 < base + n then .error .invalid
  else if (List.range n).all fun k => (s.channelMap (base + k)).all mine then .ok ()
  else .error .inUse

/-- The source limit of a position (R51). -/
def State.sourceLimit (s : State) (p : Position) : Nat :=
  ((s.member p).identity.map fun d => d.sourceLimit.toNat).getD 0

/-- The listen limit of a position (R51). -/
def State.listenLimit (s : State) (p : Position) : Nat :=
  ((s.member p).identity.map fun d => d.listenLimit.toNat).getD 0

/-- One more lease with this source would exceed the member's source limit (R51). -/
def State.overSource (s : State) (p : Position) : Bool :=
  p != 0 && decide (s.sourceLimit p < s.sourceCount p + 1)

/-- One more lease listened to would exceed the member's listen limit (R51). -/
def State.overListen (s : State) (p : Position) : Bool :=
  p != 0 && decide (s.listenLimit p < s.listenCount p + 1)

/-! ## A new configuration: at once or staged (R17) -/

/-- The new configuration takes effect at once: nothing of the lease is placed and the new configuration
has no listeners (R17). -/
def Lease.atOnce (l : Lease) (c : Configuration) : Bool :=
  !l.active.placed && !(l.sealedConfig.any Configuration.placed) && !(l.staged.any Configuration.placed)
    && (c.listeners == 0)

/-- The lease with a new configuration in place of its latest one. At once it becomes the active
configuration (R17), an unplaced staged configuration goes, and on a lease of the set in flight it is also
staged, so that it outlasts the sealed one (R20, R73, R95; A6: DEDUCED). Otherwise it becomes the staged one. -/
def Lease.adopt (l : Lease) (c : Configuration) : Lease :=
  if l.atOnce c then { l with active := c, staged := l.sealedConfig.map fun _ => c } else { l with staged := some c }

/-- The event that gives a lease a new configuration (R17). -/
def adoptEvent (e : Entry) (l : Lease) (c : Configuration) : EntryEvent :=
  if l.atOnce c then e.put (l.adopt c) else e.stage (l.adopt c)

/-- Its answer: DONE at once, STAGED otherwise (R17). -/
def adoptStatus (l : Lease) (c : Configuration) : Status := if l.atOnce c then .done else .staged

/-! ## Requests on leases -/

/-- What a request on a lease that passed every step does: the event on its entry, the status, and the
offset that the answer carries. -/
structure LeaseAct where
  index  : LeaseIndex
  event  : EntryEvent
  status : Status
  offset : Option Nat
deriving DecidableEq, Repr

/-- The lease that a CREATE makes, before its first listeners (R53). -/
def CreateFields.lease (f : CreateFields) (owner : Position) (n : FrameNumber) : Lease :=
  { stream := f.stream, owner, source := f.source, direction := f.direction
    listenOpen := f.listenOpen, shapeOpen := f.shapeOpen
    term := f.term, expiry := expiryFrom n f.term
    active := ⟨f.width, f.count, 0, none⟩, sealed := none, staged := none, mark := none
    base := f.base, heard := false, parityFaults := 0 }

/-- The configuration that a CREATE with listeners stages, before its placement (R53). -/
def CreateFields.config (f : CreateFields) : Configuration := ⟨f.width, f.count, f.listeners, none⟩

/-- The local channel check of a CREATE (R157). -/
def State.createChannels (s : State) (f : CreateFields) : Except Status Unit :=
  match f.base with
  | none => .ok ()
  | some b =>
    if bindable f.direction f.source f.listeners then s.channelCheck (fun _ => false) b.val f.count
    else .error .invalid

/-- The capacity step of a CREATE, and its effect (R52, R53). -/
def State.createIn (s : State) (owner : Position) (f : CreateFields) : Except Status LeaseAct :=
  match s.lowestFree with
  | none => .error .tableFull
  | some i =>
    match s.placeFor i f.direction f.source f.config none with
    | none => .error .noRoom
    | some c =>
      let e := s.leases[i]
      let l := f.lease owner s.chain.counter
      if f.listeners = 0 then .ok ⟨i, e.put l, .done, none⟩
      else .ok ⟨i, e.stage { l with staged := some c }, .staged, c.placement⟩

/-- CREATE after the form step (R50, R51, R52, R53, R54). -/
def State.createLease (s : State) (owner : Position) (f : CreateFields) : Except Status LeaseAct :=
  if !(s.usable f.source && everyListener f.listeners s.usable) then .error .invalid
  else if f.direction = .up ∧ f.source = 0 then .error .invalid
  else if !everyListener f.listeners (onSide f.direction f.source) then .error .invalid
  else if hasListener f.listeners f.source then .error .invalid
  else if (s.streamMap f.stream).isSome then .error .inUse
  else match s.createChannels f with
    | .error st => .error st
    | .ok () =>
      if owner ≠ 0 ∧ f.term = 0 then .error .invalid
      else if s.overSource f.source || !everyListener f.listeners (fun p => !s.overListen p) then .error .limit
      else s.createIn owner f

/-- The local channel check of a SHAPE on a bound lease (R50, R158). -/
def State.shapeChannels (s : State) (i : LeaseIndex) (l : Lease) (c : Configuration) : Except Status Unit :=
  match l.base with
  | none => .ok ()
  | some b => s.channelCheck (fun j => j == i) b.val (l.adopt c).largestCount

/-- SHAPE after the form step, from position `who` (R55). -/
def State.shapeLease (s : State) (who : Position) (h : Handle) (w : Width) (n : Nat) : Except Status LeaseAct :=
  match s.target h false false with
  | .error st => .error st
  | .ok l =>
    if !(who == 0 || l.owner == who || l.shapeOpen) then .error .denied
    else
      let c : Configuration := { l.latest with width := w, count := n, placement := none }
      match s.shapeChannels h.index l c with
      | .error st => .error st
      | .ok () =>
        match s.placeFor h.index l.direction l.source c l.latest.placement with
        | none => .error .noRoom
        | some c' => .ok ⟨h.index, adoptEvent s.leases[h.index] l c', adoptStatus l c', c'.placement⟩

/-- ADD_LISTENER and LISTEN after the form step, from position `who`, adding `p` (R56). -/
def State.listenLease (s : State) (who : Position) (h : Handle) (p : Position) : Except Status LeaseAct :=
  match s.target h false false with
  | .error st => .error st
  | .ok l =>
    if !(who == 0 || l.owner == who || l.listenOpen) then .error .denied
    else if !s.usable p then .error .invalid
    else if !onSide l.direction l.source p then .error .invalid
    else if p = l.source || hasListener l.latest.listeners p then .error .invalid
    else if !l.listensAt p && s.overListen p then .error .limit
    else
      let c : Configuration := { l.latest with listeners := withListener l.latest.listeners p, placement := none }
      match s.placeFor h.index l.direction l.source c l.latest.placement with
      | none => .error .noRoom
      | some c' => .ok ⟨h.index, adoptEvent s.leases[h.index] l c', adoptStatus l c', c'.placement⟩

/-- DROP_LISTENER and QUIT after the form step, removing `p` (R57). A position that is no listener of the
latest configuration is answered INVALID, at the meaning step or, for QUIT, at the rights step. -/
def State.dropLease (s : State) (h : Handle) (p : Position) : Except Status LeaseAct :=
  match s.target h false false with
  | .error st => .error st
  | .ok l =>
    if !hasListener l.latest.listeners p then .error .invalid
    else
      let c := l.latest.shrunkTo (withoutListener l.latest.listeners p)
      .ok ⟨h.index, adoptEvent s.leases[h.index] l c, adoptStatus l c, c.placement⟩

/-- RETIRE on a lease that passed every step, from position `who` (R14, R58). -/
def retireRequest (e : Entry) (l : Lease) (who : Position) : EntryEvent × Status :=
  match l.mark with
  | none => (retireLive e l (.requested who), if l.retiresAtOnce then .done else .staged)
  | some ⟨.expired, .staged⟩ => (e.put { l with mark := some ⟨.requested who, .staged⟩ }, .staged)
  | some _ => (.unchanged e, .staged)

/-- RETIRE after the form step, from position `who` (R58). -/
def State.retireLease (s : State) (who : Position) (h : Handle) : Except Status LeaseAct :=
  match s.target h true false with
  | .error st => .error st
  | .ok l =>
    if !(who == 0 || l.owner == who) then .error .denied
    else
      let r := retireRequest s.leases[h.index] l who
      .ok ⟨h.index, r.1, r.2, none⟩

/-- RENEW after the form step, from position `who`; the new term is absent for "keep" (R59, R104, R105). -/
def State.renewLease (s : State) (who : Position) (h : Handle) (newTerm : Option Term) : Except Status LeaseAct :=
  match s.target h true false with
  | .error st => .error st
  | .ok l =>
    if !(who == 0 || l.owner == who || l.source == who) then .error .denied
    else if newTerm = some 0 ∧ l.owner ≠ 0 then .error .invalid
    else match l.renewed s.chain.counter (newTerm.getD l.term) with
      | some l' => .ok ⟨h.index, s.leases[h.index].put l', .done, none⟩
      | none => .error .gone

/-- SET_RIGHTS after the form step (R60). -/
def State.setRightsLease (s : State) (h : Handle) (listenOpen shapeOpen : Bool) : Except Status LeaseAct :=
  match s.target h false false with
  | .error st => .error st
  | .ok l => .ok ⟨h.index, s.leases[h.index].put { l with listenOpen, shapeOpen }, .done, none⟩

/-- BIND_LOCAL after the form step; the base is absent for "none" (R61, R157). -/
def State.bindLease (s : State) (h : Handle) (base : Option Channel) : Except Status LeaseAct :=
  match s.target h false false with
  | .error st => .error st
  | .ok l =>
    let bound : LeaseAct := ⟨h.index, s.leases[h.index].put { l with base }, .done, none⟩
    match base with
    | none => .ok bound
    | some b =>
      if !bindable l.direction l.source l.latest.listeners then .error .invalid
      else match s.channelCheck (fun j => j == h.index) b.val l.largestCount with
        | .error st => .error st
        | .ok () => .ok bound

/-- What QUERY leaves: with the clear flag, HEARD and the parity fault count are cleared (R62). -/
def queryEvent (e : Entry) (l : Lease) (clear : Bool) : EntryEvent :=
  if clear then e.put { l with heard := false, parityFaults := 0 } else .unchanged e

/-! ## Taking a host request -/

/-- What a host request that passed every step does: its status, the device after it, the result bytes. -/
structure HostAct where
  status : Status
  state  : State
  result : List Byte
deriving DecidableEq, Repr

/-- The host request that the engine may take now: it waits, and no member request waits or it is the
host's turn (R44). -/
def State.hostRequest? (s : State) : Option HostRequest :=
  match s.hostPort.slot with
  | .waiting r => if s.engine.queue = [] ∨ s.engine.turn = .host then some r else none
  | _ => none

/-- The answer goes into the answer buffer, the slot becomes answered and the turn MEMBER's (R42, R44, R177). -/
def State.answerHost (s : State) (r : HostRequest) (st : Status) (result : List Byte) : State :=
  { s with
    hostPort := { s.hostPort with slot := .answered r (answerFrame st r result) }
    engine := { s.engine with turn := .member } }

/-- Takes the waiting host request when the engine may and its command is the one of this event (R42, R44,
R45); a request refused at any step changes nothing else (section 3.2). -/
def State.takeHost (s : State) (isCommand : Byte → Bool)
    (meaning : State → List Byte → Except Status HostAct) : State :=
  match s.hostRequest? with
  | none => s
  | some r =>
    if isCommand r.command then
      match meaning s r.params with
      | .ok a => a.state.answerHost r a.status a.result
      | .error st => s.answerHost r st []
    else s

/-- A request on a lease, taken for the host: the result bytes follow the handle. -/
def State.hostLeaseAct (s : State) (r : Except Status LeaseAct) (rest : LeaseAct → List Byte) : Except Status HostAct :=
  match r with
  | .ok a => .ok ⟨a.status, s.onEntry a.index a.event, (s.handleOf a.index).bytes ++ rest a⟩
  | .error st => .error st

/-- The offset that CREATE, SHAPE and the listener requests answer with (R191). -/
def LeaseAct.hostOffset (a : LeaseAct) : List Byte := offsetBytes a.offset

/-! ## Taking a member request -/

/-- What a member request that passed every step does: its status, the device after it, and the handle and
result of its answer. -/
structure MemberAct where
  status : Status
  state  : State
  handle : Handle
  result : BitVec 22
deriving DecidableEq, Repr

/-- The member request that the engine may take now, with the rest of the queue: it is at the head, and no
host request waits or it is the members' turn (R44). -/
def State.memberRequest? (s : State) : Option (QueueEntry × List QueueEntry) :=
  match s.engine.queue with
  | [] => none
  | e :: rest => match s.hostPort.slot with
    | .waiting _ => if s.engine.turn = .member then some (e, rest) else none
    | _ => some (e, rest)

/-- The answer becomes the pending answer of the sender and joins the delivery list (R45, R143). -/
def State.pend (s : State) (e : QueueEntry) (st : Status) (h : Handle) (result : BitVec 22) : State :=
  let a : PendingAnswer := ⟨e.operation, st, e.overrun, h, result⟩
  let t := s.setMember e.position { s.member e.position with answer := some a }
  { t with chain := { t.chain with delivery := t.chain.delivery ++ [.answer e.position] } }

/-- The handle with index 0 and generation 0, where an answer names none (R45). -/
def Handle.zero : Handle := ⟨0, 0⟩

/-- Takes the member request at the head of the queue when the engine may and its operation is the one of
this event (R43, R44, R45). `named` is the handle field of a refusal. -/
def State.takeMember (s : State) (operation : BitVec 3) (named : QueueEntry → Handle)
    (meaning : State → QueueEntry → Except Status MemberAct) : State :=
  match s.memberRequest? with
  | none => s
  | some (e, rest) =>
    if e.operation = operation then
      let t : State := { s with engine := { queue := rest, turn := .host } }
      match meaning t e with
      | .ok a => a.state.pend e a.status a.handle a.result
      | .error st => t.pend e st (named e) 0
    else s

/-- A request on a lease, taken for a member: MEMBER_ACTION is raised with the handle the lease has (R71). -/
def State.memberLeaseAct (s : State) (r : Except Status LeaseAct) (result : LeaseAct → BitVec 22) : Except Status MemberAct :=
  match r with
  | .ok a =>
    .ok ⟨a.status, s.onEntry a.index (a.event.raising Reason.memberAction), s.handleOf a.index, result a⟩
  | .error st => .error st

/-- The offset that a member's CREATE, SHAPE, LISTEN and QUIT are answered with (R189). -/
def LeaseAct.memberOffset (a : LeaseAct) : BitVec 22 := offsetResult a.offset

/-- RETIRE and RENEW answer a member with no result (R189). -/
def LeaseAct.noResult (_ : LeaseAct) : BitVec 22 := 0

end Sys2Proof.Machine
end

