-- ==== Sys2Proof/Machine/HostRequests.lean ====
section
/-! DEFINITION. The host requests: for each the event in which the Request Engine takes it from the
request slot (R44), its form step (R190), and what it does. -/

namespace Sys2Proof.Machine

/-! ## Requests on leases (section 3.3) -/

/-- The meaning of a host CREATE (R53). -/
def hostCreate (s : State) (ps : List Byte) : Except Status HostAct :=
  match readCreate ps with
  | none => .error .invalid
  | some f => s.hostLeaseAct (s.createLease 0 f) LeaseAct.hostOffset

/-- The meaning of a host SHAPE (R55). -/
def hostShape (s : State) (ps : List Byte) : Except Status HostAct :=
  match readShape ps with
  | none => .error .invalid
  | some (h, w, n) => s.hostLeaseAct (s.shapeLease 0 h w n) LeaseAct.hostOffset

/-- The meaning of ADD_LISTENER (R56). -/
def hostAddListener (s : State) (ps : List Byte) : Except Status HostAct :=
  match readHandlePosition ps with
  | none => .error .invalid
  | some (h, p) => s.hostLeaseAct (s.listenLease 0 h p) LeaseAct.hostOffset

/-- The meaning of DROP_LISTENER (R57). -/
def hostDropListener (s : State) (ps : List Byte) : Except Status HostAct :=
  match readHandlePosition ps with
  | none => .error .invalid
  | some (h, p) => s.hostLeaseAct (s.dropLease h p) LeaseAct.hostOffset

/-- The meaning of a host RETIRE (R58). -/
def hostRetire (s : State) (ps : List Byte) : Except Status HostAct :=
  match readHandleOnly ps with
  | none => .error .invalid
  | some h => s.hostLeaseAct (s.retireLease 0 h) fun _ => []

/-- The meaning of a host RENEW (R59, R104). -/
def hostRenew (s : State) (ps : List Byte) : Except Status HostAct :=
  match readRenew ps with
  | none => .error .invalid
  | some (h, t) => s.hostLeaseAct (s.renewLease 0 h t) fun _ => []

/-- The meaning of SET_RIGHTS (R60). -/
def hostSetRights (s : State) (ps : List Byte) : Except Status HostAct :=
  match readSetRights ps with
  | none => .error .invalid
  | some (h, a, b) => s.hostLeaseAct (s.setRightsLease h a b) fun _ => []

/-- The meaning of BIND_LOCAL (R61). -/
def hostBindLocal (s : State) (ps : List Byte) : Except Status HostAct :=
  match readBindLocal ps with
  | none => .error .invalid
  | some (h, b) => s.hostLeaseAct (s.bindLease h b) fun _ => []

/-- The meaning of QUERY: the record as it stands, then the clearing (R62). -/
def hostQuery (s : State) (ps : List Byte) : Except Status HostAct :=
  match readQuery ps with
  | none => .error .invalid
  | some (h, clear) =>
    match s.target h true true with
    | .error st => .error st
    | .ok l => .ok ⟨.done, s.onEntry h.index (queryEvent s.leases[h.index] l clear), queryResult l⟩

/-- The meaning of a host RESOLVE (R63). -/
def hostResolve (s : State) (ps : List Byte) : Except Status HostAct :=
  match readResolve ps with
  | none => .error .invalid
  | some n =>
    match s.resolve n with
    | .error st => .error st
    | .ok (i, l) => .ok ⟨.done, s, hostResolveResult (s.handleOf i) l⟩

/-! ## Requests on the device (section 3.4) -/

/-- A REPACK finds staged work: some non-FREE lease has a staged configuration or a mark of either stage (R38). -/
def State.repackBlocked (s : State) : Bool :=
  allLeases.any fun i => (s.lease? i).any fun l => l.staged.isSome || l.mark.isSome

/-- The number of leases a plan moves (R40). -/
def movedCount (plan : List (PlanItem × Nat)) : Nat := allLeases.countP fun i => (movedTo plan i).isSome

/-- The meaning of REPACK (R38, R39, R40, R64). -/
def hostRepack (s : State) (ps : List Byte) : Except Status HostAct :=
  match readNothing ps with
  | none => .error .invalid
  | some () =>
    if s.chain.state = .stopped then .error .notRunning
    else if s.publisher.stage ≠ .idle ∨ s.repackBlocked then .error .busy
    else match s.repackPlan with
      | none => .error .noRoom
      | some plan =>
        if movedCount plan = 0 then .ok ⟨.done, s, [0]⟩
        else .ok ⟨.staged, s.sealRepack plan, [BitVec.ofNat 8 (movedCount plan)]⟩

/-- The meaning of PUBLISH (R64, R79). -/
def hostPublish (s : State) (ps : List Byte) : Except Status HostAct :=
  match readNothing ps with
  | none => .error .invalid
  | some () =>
    if s.chain.state = .stopped then .error .notRunning
    else if s.publisher.stage.set?.isSome then .error .busy
    else if s.anyStaged then .ok ⟨.done, s.sealStaged, [BitVec.ofNat 8 s.stagedDeltas.length]⟩
    else .ok ⟨.done, s, [0]⟩

/-- What SET_PUBLISHING does to the publisher (R65, R80). -/
def State.setPublishing (s : State) (m : PublishingMode) (w : Byte) : State :=
  let t : State := { s with publisher := { s.publisher with mode := m, window := w } }
  match s.publisher.stage with
  | .idle => if t.anyStaged then t.noteStaged else t
  | .batching _ => if m = .manual then t.setStage .idle else t
  | _ => t

/-- The meaning of SET_PUBLISHING (R65, R80). -/
def hostSetPublishing (s : State) (ps : List Byte) : Except Status HostAct :=
  match readSetPublishing ps with
  | none => .error .invalid
  | some (m, w) => .ok ⟨.done, s.setPublishing m w, []⟩

/-- The meaning of READ_MEMBER (R67). -/
def hostReadMember (s : State) (ps : List Byte) : Except Status HostAct :=
  match readReadMember ps with
  | none => .error .invalid
  | some p =>
    .ok ⟨.done, s, readMemberResult (s.member p) (s.queued p) (s.sourceCount p) (s.listenCount p)⟩

/-- The meaning of SET_EXPECTED (R67, R115). -/
def hostSetExpected (s : State) (ps : List Byte) : Except Status HostAct :=
  match readSetExpected ps with
  | none => .error .invalid
  | some (p, x) => .ok ⟨.done, s.setMember p { s.member p with expected := x }, []⟩

/-- The meaning of SET_ADMISSION (R67, R115). -/
def hostSetAdmission (s : State) (ps : List Byte) : Except Status HostAct :=
  match readSetAdmission ps with
  | none => .error .invalid
  | some m => .ok ⟨.done, { s with members := { s.members with admission := m } }, []⟩

/-- The start of the chain (R66, R74, R113, R134, R154). -/
def State.startChain (s : State) (rate : Rate) (missLimit lead : Nat) : State :=
  { s with
    chain := { ChainEngine.reset with state := .running, rate, lead := some lead }
    members := { s.members with missLimit := some missLimit, lastOpenCall := none }
    publisher := { s.publisher with epoch := 0 }
    localPort := LocalPort.silent }

/-- The meaning of CHAIN_START (R66, R134). -/
def hostChainStart (s : State) (ps : List Byte) : Except Status HostAct :=
  match readChainStart ps with
  | none => .error .invalid
  | some (rate, missLimit, lead) =>
    if s.chain.state = .running then .error .busy
    else .ok ⟨.done, s.startChain rate missLimit lead, []⟩

/-- Chain stop acts on one entry: a standing lease with source 0 and no mark is kept unplaced, every other
lease goes FREE, and nothing is raised (R22). -/
def stopEntry (e : Entry) : EntryEvent :=
  match e.lease with
  | some l =>
    if l.term = 0 ∧ l.source = 0 ∧ l.mark = none then
      e.put { l with active := l.active.unplaced, sealed := none, staged := none }
    else ⟨e.freed, [], false⟩
  | none => .unchanged e

/-- Chain stop acts on one member record (R113). -/
def Member.emptied (m : Member) : Member :=
  { m with state := .vacant, identity := none, misses := 0, answer := none }

/-- The stop of the chain (R22, R66, R98, R113, R135, R154). -/
def State.stopChain (s : State) : State :=
  let t := s.onEveryEntry fun _ e => stopEntry e
  { t with
    engine := { t.engine with queue := [] }
    publisher := { t.publisher with stage := .idle }
    members := { t.members with
      records := Vector.ofFn fun j => t.members.records[j].emptied
      missLimit := none }
    chain := { ChainEngine.reset with counter := t.chain.counter, rate := t.chain.rate }
    localPort := LocalPort.silent }

/-- The meaning of CHAIN_STOP (R66, R135). -/
def hostChainStop (s : State) (ps : List Byte) : Except Status HostAct :=
  match readNothing ps with
  | none => .error .invalid
  | some () => .ok ⟨.done, if s.chain.state = .running then s.stopChain else s, []⟩

/-- The fetch of the first item of the attention set, and its five result bytes (R169, R191). DESIGN CHOICE (A17):
bits 7 to 5 of an item's reasons byte, which R191 does not name, are 0. -/
def AttentionSet.fetch (a : AttentionSet) : AttentionSet × List Byte :=
  if a.device ≠ 0 then ({ a with device := 0 }, [1, 0, 0, 0, a.device.zeroExtend 8])
  else match memberPositions.find? fun p => a.members[memberIndex p] != 0 with
    | some p =>
      ({ a with members := a.members.set (memberIndex p) 0 },
        [2, BitVec.ofNat 8 p.val, 0, 0, a.members[memberIndex p].zeroExtend 8])
    | none =>
      match allLeases.find? fun i => a.leases[i].isSome with
      | some i =>
        let it := a.leases[i].getD ⟨0, 0⟩
        ({ a with leases := a.leases.set i none },
          [3, BitVec.ofNat 8 i.val] ++ (Handle.mk i it.generation).bytes ++ [it.reasons.zeroExtend 8])
      | none => (a, [0, 0, 0, 0, 0])

/-- The meaning of FETCH_ATTENTION (R68, R169). -/
def hostFetchAttention (s : State) (ps : List Byte) : Except Status HostAct :=
  match readNothing ps with
  | none => .error .invalid
  | some () => .ok ⟨.done, { s with attention := s.attention.fetch.1 }, s.attention.fetch.2⟩

/-- The meaning of READ_STATUS (R68). -/
def hostReadStatus (s : State) (ps : List Byte) : Except Status HostAct :=
  match readNothing ps with
  | none => .error .invalid
  | some () => .ok ⟨.done, s, s.statusResult⟩

/-- A command code that names no host request (R46). -/
def unknownCode (b : Byte) : Bool := b == 0 || decide (20 < b.toNat)

/-! ## The events -/

/-- CREATE, command code 1 (R53). -/
def execCreate (s : State) : Host.Outcome State Fault Refusal := .next (s.takeHost (· == 1) hostCreate)

/-- SHAPE, command code 2 (R55). -/
def execShape (s : State) : Host.Outcome State Fault Refusal := .next (s.takeHost (· == 2) hostShape)

/-- ADD_LISTENER, command code 3 (R56). -/
def execAddListener (s : State) : Host.Outcome State Fault Refusal := .next (s.takeHost (· == 3) hostAddListener)

/-- DROP_LISTENER, command code 4 (R57). -/
def execDropListener (s : State) : Host.Outcome State Fault Refusal := .next (s.takeHost (· == 4) hostDropListener)

/-- RETIRE, command code 5 (R58). -/
def execRetire (s : State) : Host.Outcome State Fault Refusal := .next (s.takeHost (· == 5) hostRetire)

/-- RENEW, command code 6 (R104). -/
def execRenew (s : State) : Host.Outcome State Fault Refusal := .next (s.takeHost (· == 6) hostRenew)

/-- SET_RIGHTS, command code 7 (R60). -/
def execSetRights (s : State) : Host.Outcome State Fault Refusal := .next (s.takeHost (· == 7) hostSetRights)

/-- BIND_LOCAL, command code 8 (R61). -/
def execBindLocal (s : State) : Host.Outcome State Fault Refusal := .next (s.takeHost (· == 8) hostBindLocal)

/-- QUERY, command code 9 (R62). -/
def execQuery (s : State) : Host.Outcome State Fault Refusal := .next (s.takeHost (· == 9) hostQuery)

/-- RESOLVE, command code 10 (R63). -/
def execResolve (s : State) : Host.Outcome State Fault Refusal := .next (s.takeHost (· == 10) hostResolve)

/-- REPACK, command code 11 (R40). -/
def execRepack (s : State) : Host.Outcome State Fault Refusal := .next (s.takeHost (· == 11) hostRepack)

/-- PUBLISH, command code 12 (R79). -/
def execPublish (s : State) : Host.Outcome State Fault Refusal := .next (s.takeHost (· == 12) hostPublish)

/-- SET_PUBLISHING, command code 13 (R80). -/
def execSetPublishing (s : State) : Host.Outcome State Fault Refusal := .next (s.takeHost (· == 13) hostSetPublishing)

/-- READ_MEMBER, command code 14 (R67). -/
def execReadMember (s : State) : Host.Outcome State Fault Refusal := .next (s.takeHost (· == 14) hostReadMember)

/-- SET_EXPECTED, command code 15 (R115). -/
def execSetExpected (s : State) : Host.Outcome State Fault Refusal := .next (s.takeHost (· == 15) hostSetExpected)

/-- SET_ADMISSION, command code 16 (R115). -/
def execSetAdmission (s : State) : Host.Outcome State Fault Refusal := .next (s.takeHost (· == 16) hostSetAdmission)

/-- CHAIN_START, command code 17 (R134). -/
def execChainStart (s : State) : Host.Outcome State Fault Refusal := .next (s.takeHost (· == 17) hostChainStart)

/-- CHAIN_STOP, command code 18 (R135). -/
def execChainStop (s : State) : Host.Outcome State Fault Refusal := .next (s.takeHost (· == 18) hostChainStop)

/-- FETCH_ATTENTION, command code 19 (R169). -/
def execFetchAttention (s : State) : Host.Outcome State Fault Refusal := .next (s.takeHost (· == 19) hostFetchAttention)

/-- READ_STATUS, command code 20 (R68). -/
def execReadStatus (s : State) : Host.Outcome State Fault Refusal := .next (s.takeHost (· == 20) hostReadStatus)

/-- UNKNOWN_COMMAND: a command code of 0 or 21 to 255 is answered INVALID (R46, R175). -/
def execUnknownCommand (s : State) : Host.Outcome State Fault Refusal :=
  .next (s.takeHost unknownCode fun _ _ => .error .invalid)

end Sys2Proof.Machine
end

