-- ==== Sys2Proof/Machine/MemberRequests.lean ====
section
/-! DEFINITION. The member requests: for each the event in which the Request Engine takes it from the head
of the member request queue (R44), and what it does. -/

namespace Sys2Proof.Machine

/-- The meaning of a member CREATE: the sender is owner and source (R54). -/
def memberCreate (s : State) (e : QueueEntry) : Except Status MemberAct :=
  match e.create with
  | none => .error .invalid
  | some f => s.memberLeaseAct (s.createLease e.position f) LeaseAct.memberOffset

/-- The meaning of a member SHAPE (R55). -/
def memberShape (s : State) (e : QueueEntry) : Except Status MemberAct :=
  match e.shape with
  | none => .error .invalid
  | some (w, n) => s.memberLeaseAct (s.shapeLease e.position e.handle w n) LeaseAct.memberOffset

/-- The meaning of LISTEN: the sender adds itself (R56). -/
def memberListen (s : State) (e : QueueEntry) : Except Status MemberAct :=
  s.memberLeaseAct (s.listenLease e.position e.handle e.position) LeaseAct.memberOffset

/-- The meaning of QUIT: the sender removes itself (R57). -/
def memberQuit (s : State) (e : QueueEntry) : Except Status MemberAct :=
  s.memberLeaseAct (s.dropLease e.handle e.position) LeaseAct.memberOffset

/-- The meaning of a member RETIRE (R58). -/
def memberRetire (s : State) (e : QueueEntry) : Except Status MemberAct :=
  s.memberLeaseAct (s.retireLease e.position e.handle) LeaseAct.noResult

/-- The meaning of a member RENEW: the term is kept (R59). -/
def memberRenew (s : State) (e : QueueEntry) : Except Status MemberAct :=
  s.memberLeaseAct (s.renewLease e.position e.handle none) LeaseAct.noResult

/-- The meaning of a member RESOLVE (R63). -/
def memberResolve (s : State) (e : QueueEntry) : Except Status MemberAct :=
  match e.stream with
  | none => .error .invalid
  | some n =>
    match s.resolve n with
    | .error st => .error st
    | .ok (i, l) => .ok ⟨.done, s, s.handleOf i, resolveResult l⟩

/-- A refused CREATE, RESOLVE or unknown operation names no handle (R45). -/
def noHandle (_ : QueueEntry) : Handle := Handle.zero

/-- MEMBER_CREATE, operation 1 (R54). -/
def execMemberCreate (s : State) : Host.Outcome State Fault Refusal :=
  .next (s.takeMember 1 noHandle memberCreate)

/-- MEMBER_SHAPE, operation 2 (R55). -/
def execMemberShape (s : State) : Host.Outcome State Fault Refusal :=
  .next (s.takeMember 2 QueueEntry.handle memberShape)

/-- LISTEN, operation 3 (R56). -/
def execListen (s : State) : Host.Outcome State Fault Refusal :=
  .next (s.takeMember 3 QueueEntry.handle memberListen)

/-- QUIT, operation 4 (R57). -/
def execQuit (s : State) : Host.Outcome State Fault Refusal :=
  .next (s.takeMember 4 QueueEntry.handle memberQuit)

/-- MEMBER_RETIRE, operation 5 (R58). -/
def execMemberRetire (s : State) : Host.Outcome State Fault Refusal :=
  .next (s.takeMember 5 QueueEntry.handle memberRetire)

/-- MEMBER_RENEW, operation 6 (R59). -/
def execMemberRenew (s : State) : Host.Outcome State Fault Refusal :=
  .next (s.takeMember 6 QueueEntry.handle memberRenew)

/-- MEMBER_RESOLVE, operation 7 (R63). -/
def execMemberResolve (s : State) : Host.Outcome State Fault Refusal :=
  .next (s.takeMember 7 noHandle memberResolve)

/-- MEMBER_OP_NONE: operation 0 is answered INVALID at the form step (R188). -/
def execMemberOpNone (s : State) : Host.Outcome State Fault Refusal :=
  .next (s.takeMember 0 noHandle fun _ _ => .error .invalid)

end Sys2Proof.Machine
end

