-- ==== Sys2Proof/Machine/Port.lean ====
section
/-! DEFINITION. The Host Port: select periods, the request write, the answer read, the status read, and
device reset. -/

namespace Sys2Proof.Machine

/-- Replaces the state of the Host Port. -/
def State.setPort (s : State) (p : HostPort) : State := { s with hostPort := p }

/-- HCS_N rises: the select period is over. -/
def State.riseSelect (s : State) : State := s.setPort { s.hostPort with select := .high }

/-- The select period in progress is ignored until HCS_N rises, also when the reset ends before that (R182). -/
def State.ignoreSelect (s : State) : State := s.setPort { s.hostPort with select := .ignored }

/-- HCS_N falls: the port captures the status byte and shifts it out with the selector; during a device
reset the period is ignored (R173, R182). -/
def State.fallSelect (s : State) : State :=
  if s.inReset then s.ignoreSelect
  else s.setPort { s.hostPort with select := .low, hsdo := [s.statusByte] }

/-- The select period of a transaction: the one HCS_N opened, or a new one (R173). -/
def State.openSelect (s : State) : State :=
  match s.hostPort.select with
  | .low => s
  | _ => s.fallSelect

/-- The port takes no transaction: the device is in reset, or HCS_N has not risen since (R182). -/
def State.deaf (s : State) : Bool := s.inReset || s.hostPort.select == .ignored

/-- The checks of a request frame (R174). -/
def frameGood (frame : List Byte) (strayBits : Fin 8) : Bool :=
  strayBits == 0 && decide (3 ≤ frame.length) && decide (frame.length ≤ 15)
    && crc8 frame.dropLast == frame.getLastD 0

/-- The request that a frame holds: command, tag, parameters, and the CRC left out (R175, R190). -/
def requestOf (frame : List Byte) : HostRequest :=
  { command := frame.getD 0 0, tag := frame.getD 1 0, params := (frame.drop 2).dropLast }

/-- A frame is examined and offered to the slot (R174, R175). -/
def HostPort.offer (p : HostPort) (frame : List Byte) (strayBits : Fin 8) : HostPort :=
  if frameGood frame strayBits then
    match p.slot with
    | .empty => { p with slot := .waiting (requestOf frame) }
    | _ => { p with slotFull := true }
  else { p with checkError := true }

/-- REQUEST_WRITE: the frame is examined at the rising edge of HCS_N (R174, R175). -/
def execRequestWrite (frame : List Byte) (strayBits : Fin 8) (s : State) : Host.Outcome State Fault Refusal :=
  .next (if s.deaf then s.riseSelect
    else
      let t := s.openSelect
      (t.setPort (t.hostPort.offer frame strayBits)).riseSelect)

/-- The selector of an answer read is decoded: the content of the read is fixed (R178). -/
def HostPort.beginRead (p : HostPort) : HostPort :=
  match p.slot with
  | .answered _ a => { p with select := .answering a true, hsdo := p.hsdo ++ a }
  | _ => { p with select := .answering noneFrame false, hsdo := p.hsdo ++ noneFrame }

/-- HCS_N rises after an answer read that clocked so many bits behind the selector: a whole answer read
from the buffer is released (R178). -/
def HostPort.endRead (p : HostPort) (bits : Nat) : HostPort :=
  match p.select with
  | .answering frame true =>
    if 8 * frame.length ≤ bits then { p with slot := .empty, select := .high } else { p with select := .high }
  | _ => { p with select := .high }

/-- The answer read's selector is decoded in its select period. -/
def State.startRead (s : State) : State :=
  let t := s.openSelect
  t.setPort t.hostPort.beginRead

/-- An answer read is in progress. -/
def Select.isAnswering : Select → Bool
  | .answering _ _ => true
  | _ => false

/-- ANSWER_READ: its selector's decode or its end (R178). A read that begins in a device reset stays ignored up to its
end, wherever the reset ends (R182). -/
def execAnswerRead (m : ReadMoment) (s : State) : Host.Outcome State Fault Refusal :=
  .next (match m with
    | .selector => if s.deaf then s.ignoreSelect else s.startRead
    | .finish bits =>
      if s.deaf then s.riseSelect
      else
        let t := if s.hostPort.select.isAnswering then s else s.startRead
        t.setPort (t.hostPort.endRead bits))

/-- STATUS_READ: the byte is captured at the decode of the selector, and then the sticky flags are cleared (R180). -/
def execStatusRead (s : State) : Host.Outcome State Fault Refusal :=
  .next (if s.deaf then s.riseSelect
    else
      let t := s.openSelect
      (t.setPort { t.hostPort with
        hsdo := t.hostPort.hsdo ++ [t.statusByte], checkError := false, slotFull := false }).riseSelect)

/-- The byte names one of the three transactions (section 11.2). -/
def namesTransaction (b : Byte) : Bool :=
  b == Config.selRequestWrite || b == Config.selAnswerRead || b == Config.selStatusRead

/-- UNKNOWN_SELECTOR: CHECK_ERROR is set and the rest of the select period is ignored (R173). -/
def execUnknownSelector (b : Byte) (s : State) : Host.Outcome State Fault Refusal :=
  .next (if namesTransaction b then s
    else if s.deaf then s.riseSelect
    else
      let t := s.openSelect
      (t.setPort { t.hostPort with checkError := true }).riseSelect)

/-- SELECT_PERIOD_START (R173). -/
def execSelectPeriodStart (s : State) : Host.Outcome State Fault Refusal := .next s.fallSelect

/-- DEVICE_RESET: every block takes its device reset values; a select period in progress is abandoned and
ignored until HCS_N rises (R182). -/
def execDeviceReset (s : State) : Host.Outcome State Fault Refusal :=
  let select : Select := if s.hostPort.select = .high then .high else .ignored
  .next { State.reset with
    hostPort := { State.reset.hostPort with select := select }
    inReset := true
    pending := s.pending }

/-- RESET_END (R182). -/
def execResetEnd (s : State) : Host.Outcome State Fault Refusal := .next { s with inReset := false }

end Sys2Proof.Machine
end

