-- ==== Sys2Proof/Machine/Dispatch.lean ====
section
/-! DEFINITION. One arm per command: the meaning it calls. -/

namespace Sys2Proof.Machine

def exec (i : Instr) (s : State) : Host.Outcome State Fault Refusal :=
  match i with
  | .requestWrite frame strayBits => Sys2Proof.Machine.execRequestWrite frame strayBits s
  | .answerRead moment => Sys2Proof.Machine.execAnswerRead moment s
  | .statusRead => Sys2Proof.Machine.execStatusRead s
  | .unknownSelector selector => Sys2Proof.Machine.execUnknownSelector selector s
  | .deviceReset => Sys2Proof.Machine.execDeviceReset s
  | .resetEnd => Sys2Proof.Machine.execResetEnd s
  | .create => Sys2Proof.Machine.execCreate s
  | .shape => Sys2Proof.Machine.execShape s
  | .addListener => Sys2Proof.Machine.execAddListener s
  | .dropListener => Sys2Proof.Machine.execDropListener s
  | .retire => Sys2Proof.Machine.execRetire s
  | .renew => Sys2Proof.Machine.execRenew s
  | .setRights => Sys2Proof.Machine.execSetRights s
  | .bindLocal => Sys2Proof.Machine.execBindLocal s
  | .query => Sys2Proof.Machine.execQuery s
  | .resolve => Sys2Proof.Machine.execResolve s
  | .repack => Sys2Proof.Machine.execRepack s
  | .publish => Sys2Proof.Machine.execPublish s
  | .setPublishing => Sys2Proof.Machine.execSetPublishing s
  | .readMember => Sys2Proof.Machine.execReadMember s
  | .setExpected => Sys2Proof.Machine.execSetExpected s
  | .setAdmission => Sys2Proof.Machine.execSetAdmission s
  | .chainStart => Sys2Proof.Machine.execChainStart s
  | .chainStop => Sys2Proof.Machine.execChainStop s
  | .fetchAttention => Sys2Proof.Machine.execFetchAttention s
  | .readStatus => Sys2Proof.Machine.execReadStatus s
  | .unknownCommand => Sys2Proof.Machine.execUnknownCommand s
  | .memberCreate => Sys2Proof.Machine.execMemberCreate s
  | .memberShape => Sys2Proof.Machine.execMemberShape s
  | .listen => Sys2Proof.Machine.execListen s
  | .quit => Sys2Proof.Machine.execQuit s
  | .memberRetire => Sys2Proof.Machine.execMemberRetire s
  | .memberRenew => Sys2Proof.Machine.execMemberRenew s
  | .memberResolve => Sys2Proof.Machine.execMemberResolve s
  | .memberOpNone => Sys2Proof.Machine.execMemberOpNone s
  | .frameStart => Sys2Proof.Machine.execFrameStart s
  | .expiry lease => Sys2Proof.Machine.execExpiry lease s
  | .batchWindowEnd => Sys2Proof.Machine.execBatchWindowEnd s
  | .setApplication => Sys2Proof.Machine.execSetApplication s
  | .controlMessageChoice => Sys2Proof.Machine.execControlMessageChoice s
  | .responseWord word => Sys2Proof.Machine.execResponseWord word s
  | .downRegionDrive => Sys2Proof.Machine.execDownRegionDrive s
  | .upSlotRead lease slot region => Sys2Proof.Machine.execUpSlotRead lease slot region s
  | .memberLoss position => Sys2Proof.Machine.execMemberLoss position s
  | .admissionFailure position => Sys2Proof.Machine.execAdmissionFailure position s
  | .lbckPeriod lsdi => Sys2Proof.Machine.execLbckPeriod lsdi s
  | .selectPeriodStart => Sys2Proof.Machine.execSelectPeriodStart s

end Sys2Proof.Machine
end

