-- ==== Sys2Proof/Safety.lean ====
section
/-! DEFINITION. The terms in which the statements about the device are written: who asks, how the host and
the members write what they ask, what an answer leaves, and the laws that every step keeps. -/

namespace Sys2Proof.Machine

/-! ## Who is served -/

/-- The host's request waits and the engine may take it (R42, R44). -/
def State.HostAsks (s : State) (code tag : Byte) (params : List Byte) : Prop :=
  s.hostPort.slot = .waiting ⟨code, tag, params⟩ ∧ (s.engine.queue = [] ∨ s.engine.turn = .host)

/-- A member's request is at the head of the queue, with `rest` behind it, and the engine may take it (R43, R44). -/
def State.MemberAsks (s : State) (e : QueueEntry) (rest : List QueueEntry) : Prop :=
  s.engine.queue = e :: rest ∧ ((∀ r, s.hostPort.slot ≠ .waiting r) ∨ s.engine.turn = .member)

/-- The device once the host's request is answered: the answer frame is in the buffer and the turn is the
members' (R42, R44, R177). -/
def State.hostAnswered (s : State) (code tag : Byte) (params : List Byte) (st : Status) (result : List Byte) : State :=
  { s with
    hostPort := { s.hostPort with
      slot := .answered ⟨code, tag, params⟩ (withCrc ([st.code.zeroExtend 8, tag, code] ++ result)) }
    engine := { s.engine with turn := .member } }

/-- The device once a member's request is answered: the entry has left the queue, the turn is the host's,
the answer is the sender's pending answer and its delivery is last in the list (R44, R45, R143). -/
def State.memberAnswered (s : State) (e : QueueEntry) (rest : List QueueEntry) (operation : BitVec 3)
    (st : Status) (h : Handle) (result : BitVec 22) : State :=
  let t := s.setMember e.position
    { s.member e.position with answer := some ⟨operation, st, e.overrun, h, result⟩ }
  { t with
    engine := { queue := rest, turn := .host }
    chain := { t.chain with delivery := t.chain.delivery ++ [.answer e.position] } }

/-! ## The host port and the attention set -/

/-- What HSDO has carried when the selector of a transaction is decoded: the byte captured at the fall of
HCS_N, which is now unless the period is already open (R173). -/
def State.opening (s : State) : List Byte :=
  if s.hostPort.select = .low then s.hostPort.hsdo else [s.statusByte]

/-- The attention set holds at least one item (R163). -/
def AttentionSet.HoldsAnItem (a : AttentionSet) : Prop :=
  a.device ≠ 0 ∨ (∃ k : Fin 15, a.members[k] ≠ 0) ∨ ∃ i : LeaseIndex, a.leases[i] ≠ none

/-- A byte as a polynomial over the field of two elements, its most significant bit the coefficient of x^7. -/
noncomputable def bytePolynomial (b : Byte) : Polynomial (ZMod 2) :=
  ((List.range 8).map fun k => if b.getLsbD k then Polynomial.X ^ k else 0).sum

/-- A run of bytes as a polynomial, the first byte highest: bytes in the order sent, each most significant
bit first (R185). -/
noncomputable def messagePolynomial (bs : List Byte) : Polynomial (ZMod 2) :=
  bs.foldl (fun p b => p * Polynomial.X ^ 8 + bytePolynomial b) 0

/-! ## What the host writes (R190) -/

/-- A position as a byte. -/
def posByte (p : Position) : Byte := BitVec.ofNat 8 p.val

/-- The rights as a byte. -/
def rightsByte (listenOpen shapeOpen : Bool) : Byte := (0 : BitVec 6) ++ flagBit shapeOpen ++ flagBit listenOpen

/-- The width code as a byte. -/
def widthByte (w : Width) : Byte := w.code.zeroExtend 8

/-- A term as two bytes. -/
def termBytes (t : Term) : List Byte := twoBytes (t.zeroExtend 16)

/-- The term of a RENEW as two bytes; absent is "keep". -/
def newTermBytes : Option Term → List Byte
  | some t => termBytes t
  | none => [0xFF, 0xFF]

/-- The parameters of a host CREATE. -/
def createParams (f : CreateFields) : List Byte :=
  [f.stream, posByte f.source, f.direction.bit.zeroExtend 8, widthByte f.width, BitVec.ofNat 8 f.count,
    rightsByte f.listenOpen f.shapeOpen] ++ termBytes f.term ++ twoBytes f.listeners ++ [baseByte f.base]

/-- The parameters of a host SHAPE. -/
def shapeParams (h : Handle) (w : Width) (n : Nat) : List Byte := h.bytes ++ [widthByte w, BitVec.ofNat 8 n]

/-- A flag as a byte. -/
def flagByte (b : Bool) : Byte := if b then 1 else 0

/-- The parameters of SET_EXPECTED; with no expected identity the last three bytes are not read. -/
def expectedParams (p : Position) : Option Expected → List Byte → List Byte
  | some x, _ => [posByte p, 1] ++ twoBytes x.vendor ++ [x.product]
  | none, unread => [posByte p, 0] ++ unread

/-- An admission mode as a byte. -/
def AdmissionMode.code : AdmissionMode → Byte
  | .openMode => 0
  | .listed => 1
  | .closed => 2

/-! ## What a member writes (R188) -/

/-- The payload of a member CREATE; the last ten bits are not read. -/
def createPayload (f : CreateFields) (unread : BitVec 10) : BitVec 40 :=
  (1 : BitVec 3) ++ f.stream ++ f.direction.bit ++ f.width.code ++ countBits f.count
    ++ flagBit f.listenOpen ++ flagBit f.shapeOpen ++ f.term ++ unread

/-- The payload of a member SHAPE; the last twenty bits are not read. -/
def shapePayload (h : Handle) (w : Width) (n : Nat) (unread : BitVec 20) : BitVec 40 :=
  (2 : BitVec 3) ++ h.bits ++ w.code ++ countBits n ++ unread

/-- The payload of LISTEN, QUIT, RETIRE and RENEW; the last 26 bits are not read. -/
def handlePayload (operation : BitVec 3) (h : Handle) (unread : BitVec 26) : BitVec 40 :=
  operation ++ h.bits ++ unread

/-- The payload of a member RESOLVE; the last 29 bits are not read. -/
def streamPayload (n : Stream) (unread : BitVec 29) : BitVec 40 := (7 : BitVec 3) ++ n ++ unread

/-- A response word with the check byte that its fields give. -/
def responseWordOf (ack request join : Bool) (echo : Position) (epoch : Epoch) (payload : BitVec 40) : ChainWord :=
  chainWord (flagBit true ++ flagBit ack ++ flagBit request ++ flagBit join ++ posBits echo ++ epoch ++ payload)

/-- The payload of a JOIN. -/
def identityPayload (d : Identity) : BitVec 40 :=
  d.vendor ++ d.product ++ d.revision ++ d.sourceLimit ++ d.listenLimit

/-! ## The commands that take requests -/

/-- The command that takes a host request with the command code (R190). -/
def hostCommand (code : Byte) : Instr :=
  match code.toNat with
  | 1 => .create
  | 2 => .shape
  | 3 => .addListener
  | 4 => .dropListener
  | 5 => .retire
  | 6 => .renew
  | 7 => .setRights
  | 8 => .bindLocal
  | 9 => .query
  | 10 => .resolve
  | 11 => .repack
  | 12 => .publish
  | 13 => .setPublishing
  | 14 => .readMember
  | 15 => .setExpected
  | 16 => .setAdmission
  | 17 => .chainStart
  | 18 => .chainStop
  | 19 => .fetchAttention
  | 20 => .readStatus
  | _ => .unknownCommand

/-- The length of the result of a host request answered DONE or STAGED (R191). -/
def resultLength (code : Byte) : Nat :=
  match code.toNat with
  | 1 | 2 | 3 | 4 => 4
  | 5 | 6 | 7 | 8 => 2
  | 9 => 24
  | 10 => 7
  | 11 | 12 => 1
  | 14 | 20 => 13
  | 19 => 5
  | _ => 0

/-- The command that takes a member request with the operation code (R188). -/
def memberCommand (operation : BitVec 3) : Instr :=
  match operation.toNat with
  | 1 => .memberCreate
  | 2 => .memberShape
  | 3 => .listen
  | 4 => .quit
  | 5 => .memberRetire
  | 6 => .memberRenew
  | 7 => .memberResolve
  | _ => .memberOpNone

/-- The host's request names a lease by the handle, and is well formed (R190). -/
def HostNames (h : Handle) (code : Byte) (ps : List Byte) : Prop :=
  (code = 2 ∧ ∃ w n, 1 ≤ n ∧ n ≤ 8 ∧ ps = shapeParams h w n)
  ∨ ((code = 3 ∨ code = 4) ∧ ∃ p, ps = h.bytes ++ [posByte p])
  ∨ (code = 5 ∧ ps = h.bytes)
  ∨ (code = 6 ∧ ∃ t, ps = h.bytes ++ newTermBytes t)
  ∨ (code = 7 ∧ ∃ a b, ps = h.bytes ++ [rightsByte a b])
  ∨ (code = 8 ∧ ∃ b, ps = h.bytes ++ [baseByte b])
  ∨ (code = 9 ∧ ∃ f, ps = h.bytes ++ [flagByte f])

/-- The member's request names a lease by the handle, and is well formed (R188). -/
def MemberNames (h : Handle) (operation : BitVec 3) (payload : BitVec 40) : Prop :=
  (operation = 2 ∧ ∃ w n unread, 1 ≤ n ∧ n ≤ 8 ∧ payload = shapePayload h w n unread)
  ∨ ((operation = 3 ∨ operation = 4 ∨ operation = 5 ∨ operation = 6)
      ∧ ∃ unread, payload = handlePayload operation h unread)

/-- The parameters have the form that R190 gives the command code. -/
def HostFormed (code : Byte) (ps : List Byte) : Prop :=
  (code = 1 ∧ ∃ f, f.stream ≠ 0 ∧ 1 ≤ f.count ∧ f.count ≤ 8 ∧ ps = createParams f)
  ∨ (∃ h, HostNames h code ps)
  ∨ (code = 10 ∧ ∃ n : Stream, n ≠ 0 ∧ ps = [n])
  ∨ ((code = 11 ∨ code = 12 ∨ code = 18 ∨ code = 19 ∨ code = 20) ∧ ps = [])
  ∨ (code = 13 ∧ ∃ (m : PublishingMode) (w : Byte), ps = [m.code, w])
  ∨ (code = 14 ∧ ∃ p, p ≠ 0 ∧ ps = [posByte p])
  ∨ (code = 15 ∧ ∃ p x unread, p ≠ 0 ∧ unread.length = 3 ∧ ps = expectedParams p x unread)
  ∨ (code = 16 ∧ ∃ m : AdmissionMode, ps = [m.code])
  ∨ (code = 17 ∧ ∃ (r : Rate) (m n : Nat), 2 ≤ m ∧ m ≤ 15 ∧ 2 ≤ n ∧ n ≤ 64
      ∧ ps = [r.code, BitVec.ofNat 8 m, BitVec.ofNat 8 n])

/-- The payload has the form that R188 gives the operation code. -/
def MemberFormed (operation : BitVec 3) (payload : BitVec 40) : Prop :=
  (operation = 1 ∧ ∃ f unread, f.stream ≠ 0 ∧ payload = createPayload f unread)
  ∨ (∃ h, MemberNames h operation payload)
  ∨ (operation = 7 ∧ ∃ n unread, n ≠ 0 ∧ payload = streamPayload n unread)

/-! ## What the host reads back (R191) -/

/-- The number that so many bytes of a result from one of them on hold, most significant first. -/
def numberAt (result : List Byte) (first count : Nat) : Nat :=
  ((result.drop first).take count).foldl (fun n b => 256 * n + b.toNat) 0

/-- The number that so many bits of one byte of a result hold, from its bit `low` up. -/
def bitsAt (result : List Byte) (index low count : Nat) : Nat := (result.getD index 0).toNat / 2 ^ low % 2 ^ count

/-- The four bytes from one of them on are the configuration: a shape word and a listener mask. -/
structure ConfigLayout (c : Configuration) (result : List Byte) (first : Nat) : Prop where
  width     : bitsAt result first 5 3
    = match c.width with | .w8 => 0 | .w12 => 1 | .w16 => 2 | .w20 => 3 | .w24 => 4 | .w32 => 5
  count     : 1 ≤ c.count → c.count ≤ 8 → bitsAt result first 2 3 = c.count - 1
  zero      : bitsAt result first 1 1 = 0
  placed    : ∀ o, c.placement = some o → o < 512 → numberAt result first 2 % 512 = o
  unplaced  : c.placement = none → numberAt result first 2 % 512 = 511
  listeners : ∀ p : Position, (numberAt result (first + 2) 2).testBit p.val = hasListener c.listeners p

/-- The bytes are the QUERY result for the lease (R191; that `stage` is 0 without a mark is the model's choice, A17). -/
structure QueryLayout (l : Lease) (result : List Byte) : Prop where
  length     : result.length = 24
  state      : bitsAt result 0 0 2 = match l.state with | .live => 1 | .retiring => 2 | .going => 3
  direction  : bitsAt result 0 2 1 = match l.direction with | .down => 0 | .up => 1
  listenOpen : bitsAt result 0 3 1 = l.listenOpen.toNat
  shapeOpen  : bitsAt result 0 4 1 = l.shapeOpen.toNat
  heard      : bitsAt result 0 5 1 = l.heard.toNat
  expires    : bitsAt result 0 6 1 = 1 ↔ l.expiry ≠ none
  hasStaged  : bitsAt result 0 7 1 = 1 ↔ l.staged ≠ none
  stream     : numberAt result 1 1 = l.stream.toNat
  owner      : bitsAt result 2 4 4 = l.owner.val
  source     : bitsAt result 2 0 4 = l.source.val
  term       : numberAt result 3 2 = l.term.toNat
  cause      : bitsAt result 5 0 2 = match l.mark with
    | none => 0 | some ⟨.requested _, _⟩ => 1 | some ⟨.expired, _⟩ => 2 | some ⟨.orphaned, _⟩ => 3
  stage      : bitsAt result 5 2 1 = match l.mark with | some ⟨_, .sealed⟩ => 1 | _ => 0
  requester  : bitsAt result 5 3 4 = match l.mark with | some ⟨.requested p, _⟩ => p.val | _ => 0
  hasSealed  : bitsAt result 5 7 1 = 1 ↔ ∃ c, l.sealed = some (.config c)
  base       : numberAt result 6 1 = match l.base with | some b => b.val | none => 255
  faults     : numberAt result 7 1 = l.parityFaults.toNat
  expiry     : numberAt result 8 4 = match l.expiry with | some f => f.toNat | none => 0
  active     : ConfigLayout l.active result 12
  sealed     : ∀ c, l.sealed = some (.config c) → ConfigLayout c result 16
  noSealed   : (∀ c, l.sealed ≠ some (.config c)) → numberAt result 16 4 = 0
  staged     : ∀ c, l.staged = some c → ConfigLayout c result 20
  noStaged   : l.staged = none → numberAt result 20 4 = 0

/-- The bytes are the READ_MEMBER result for a record, its queued-request mark and its two counts (R191; `zero`, the
bits 7 to 4 of byte 1 that R191 does not name, is the model's choice, A17). -/
structure MemberLayout (m : Member) (queued : Bool) (sources listens : Nat) (result : List Byte) : Prop where
  length      : result.length = 13
  state       : numberAt result 0 1 = match m.state with | .vacant => 0 | .admitting => 1 | .joined => 2 | .lost => 3
  hasIdentity : bitsAt result 1 0 1 = 1 ↔ m.identity ≠ none
  hasExpected : bitsAt result 1 1 1 = 1 ↔ m.expected ≠ none
  hasRequest  : bitsAt result 1 2 1 = queued.toNat
  hasAnswer   : bitsAt result 1 3 1 = 1 ↔ m.answer ≠ none
  zero        : bitsAt result 1 4 4 = 0
  identity    : ∀ d, m.identity = some d → numberAt result 2 2 = d.vendor.toNat ∧ numberAt result 4 1 = d.product.toNat
    ∧ numberAt result 5 1 = d.revision.toNat ∧ bitsAt result 6 4 4 = d.sourceLimit.toNat
    ∧ bitsAt result 6 0 4 = d.listenLimit.toNat
  noIdentity  : m.identity = none → numberAt result 2 5 = 0
  expected    : ∀ x, m.expected = some x → numberAt result 7 2 = x.vendor.toNat ∧ numberAt result 9 1 = x.product.toNat
  noExpected  : m.expected = none → numberAt result 7 3 = 0
  misses      : m.misses < 256 → numberAt result 10 1 = m.misses
  sources     : sources < 256 → numberAt result 11 1 = sources
  listens     : listens < 256 → numberAt result 12 1 = listens

/-! ## Changes of one entry -/

/-- The entry holds the lease, with its generation as it was. -/
def State.withLease (s : State) (i : LeaseIndex) (l : Lease) : State :=
  { s with leases := s.leases.set i ⟨s.leases[i].generation, some l⟩ }

/-- The entry is FREE, with its generation advanced by one modulo 16 (R3, R21). -/
def State.withFree (s : State) (i : LeaseIndex) : State :=
  { s with leases := s.leases.set i ⟨s.leases[i].generation + 1, none⟩ }

/-- A reason is raised on the item of a lease index with the handle the entry has now (R166, R167, R168). -/
def State.raiseLease (s : State) (i : LeaseIndex) (r : Reasons) : State :=
  { s with attention := { s.attention with
    leases := s.attention.leases.set i (raiseItem s.attention.leases[i] s.leases[i].generation r) } }

/-- The entry that a handle names holds the lease, and the lease is in the given state (R2, R13). -/
def State.Names (s : State) (h : Handle) (l : Lease) (st : LeaseState) : Prop :=
  s.leases[h.index] = ⟨h.generation, some l⟩ ∧ l.state = st

/-! ## The planning map, bit by bit -/

/-- The run holds a bit of a hop's region (R24). -/
def Run.Covers (r : Run) (hop bit : Nat) : Prop :=
  r.firstHop ≤ hop ∧ hop < r.endHop ∧ r.offset ≤ bit ∧ bit < r.offset + r.cost

/-- The two runs share no bit of any hop. -/
def Run.Apart (a b : Run) : Prop := ∀ hop bit, ¬(a.Covers hop bit ∧ b.Covers hop bit)

/-- The configuration fits at an offset: its run lies within the region and shares no bit with a claim of
another lease in the direction (R32, R33). -/
def State.FitsAt (s : State) (i : LeaseIndex) (d : Direction) (source : Position) (c : Configuration) (o : Nat) : Prop :=
  o + c.cost ≤ 440 ∧
    ∀ j l, j ≠ i → s.lease? j = some l → l.direction = d → ∀ r ∈ l.claims, (c.runAt d source o).Apart r

/-- The offset that the Placement Unit gives: the offset tried first when the configuration fits there
(R33), else the lowest at which it fits (R32). -/
def State.PlacedAt (s : State) (i : LeaseIndex) (d : Direction) (source : Position) (c : Configuration)
    (tried : Option Nat) (o : Nat) : Prop :=
  s.FitsAt i d source c o ∧ (tried = some o ∨ ∀ o', (tried = some o' ∨ o' < o) → ¬s.FitsAt i d source c o')

/-! ## The conditions of a CREATE -/

/-- The channel is reserved by no lease but the one at `i`, if an index is given (R11). -/
def State.ChannelFreeFor (s : State) (i : Option LeaseIndex) (c : Nat) : Prop :=
  ∀ j l, some j ≠ i → s.lease? j = some l → ∀ b, l.base = some b → ¬(b.val ≤ c ∧ c < b.val + l.largestCount)

/-- The channels b to b + n − 1 lie within 0 to 31 and are free for the lease in an entry, or for a new one (R50, R61). -/
def State.ChannelsFree (s : State) (i : Option LeaseIndex) (b : Channel) (n : Nat) : Prop :=
  b.val + n ≤ 32 ∧ ∀ k, k < n → s.ChannelFreeFor i (b.val + k)

/-- A CREATE passes every check of the meaning step (R50, R51, R157). -/
structure State.CreateAllowed (s : State) (owner : Position) (f : CreateFields) : Prop where
  source    : f.source = 0 ∨ s.joined f.source
  usable    : ∀ p, hasListener f.listeners p → p = 0 ∨ s.joined p
  upSource  : f.direction = .up → f.source ≠ 0
  side      : ∀ p, hasListener f.listeners p → onSide f.direction f.source p
  stream    : ∀ i l, s.lease? i = some l → l.stream ≠ f.stream
  bindable  : ∀ b, f.base = some b → (f.direction = .down ∧ f.source = 0) ∨ (f.direction = .up ∧ hasListener f.listeners 0)
  channels  : ∀ b, f.base = some b → s.ChannelsFree none b f.count
  term      : owner ≠ 0 → f.term ≠ 0
  sources   : f.source ≠ 0 → s.sourceCount f.source + 1 ≤ s.sourceLimit f.source
  listening : ∀ p, hasListener f.listeners p → p ≠ 0 → s.listenCount p + 1 ≤ s.listenLimit p

/-- The entry is the lowest FREE one (R21). -/
def State.LowestFree (s : State) (i : LeaseIndex) : Prop :=
  s.lease? i = none ∧ ∀ j, j < i → s.lease? j ≠ none

/-! ## What a request on a lease leaves -/

/-- Nothing of the lease is placed (R17: the first two conditions). -/
def Lease.Unplaced (l : Lease) : Prop :=
  l.active.placement = none ∧ (∀ c, l.sealed = some (.config c) → c.placement = none)
    ∧ ∀ c, l.staged = some c → c.placement = none

/-- The lease can be retired at once (R16). -/
def Lease.NothingInFlight (l : Lease) : Prop :=
  l.active.placement = none ∧ l.sealed = none ∧ ∀ c, l.staged = some c → c.placement = none

/-- A configuration built for the lease in an entry takes effect at once, and stays staged behind a sealed one, is
staged with a placement, or finds none: the status, the device after it, and the offset (R17, R31, R36, R95; log entry 6). -/
def State.NewConfiguration (s : State) (i : LeaseIndex) (l : Lease) (c : Configuration)
    (out : Status → State → Option Nat → Prop) : Prop :=
  (c.listeners = 0 → l.Unplaced →
    out .done (s.withLease i { l with
      active := { c with placement := none }
      staged := l.sealedConfig.map fun _ => { c with placement := none } }) none)
  ∧ (c.listeners = 0 → ¬l.Unplaced →
    out .staged (s.withLease i { l with staged := some { c with placement := none } }).noteStaged none)
  ∧ (c.listeners ≠ 0 → ∀ o, s.PlacedAt i l.direction l.source c l.latest.placement o →
    out .staged (s.withLease i { l with staged := some { c with placement := some o } }).noteStaged (some o))
  ∧ (c.listeners ≠ 0 → (∀ o, ¬s.FitsAt i l.direction l.source c o) → out .noRoom s none)

/-- A retirement asked for by a position: at once, or a STAGED mark, or the mark of the table of R14. -/
def State.Retirement (s : State) (i : LeaseIndex) (l : Lease) (who : Position) (out : Status → State → Prop) : Prop :=
  (l.mark = none → l.NothingInFlight →
    out .done (if who = 0 then s.withFree i else (s.raiseLease i Reason.retired).withFree i))
  ∧ (l.mark = none → ¬l.NothingInFlight →
    out .staged (s.withLease i { l with mark := some ⟨.requested who, .staged⟩ }).noteStaged)
  ∧ (l.mark = some ⟨.expired, .staged⟩ → out .staged (s.withLease i { l with mark := some ⟨.requested who, .staged⟩ }))
  ∧ (∀ p, l.mark = some ⟨.requested p, .staged⟩ → out .staged s)
  ∧ (l.mark = some ⟨.orphaned, .staged⟩ → out .staged s)

/-- A renewal in frame n with the term in force after it, on a lease that is LIVE or RETIRING (R104, R107). -/
def State.Renewal (s : State) (i : LeaseIndex) (l : Lease) (t : Term) (out : Status → State → Prop) : Prop :=
  let expiry : Option FrameNumber := if t = 0 then none else some (s.chain.counter + t.zeroExtend 32 * 64)
  (l.mark = none ∨ l.mark = some ⟨.expired, .staged⟩ →
    out .done (s.withLease i { l with mark := none, term := t, expiry }))
  ∧ (∀ p, l.mark = some ⟨.requested p, .staged⟩ → out .gone s)
  ∧ (l.mark = some ⟨.orphaned, .staged⟩ → out .gone s)

/-! ## The frame -/

/-- A frame of a running chain is in progress and nothing of its start is left: no application, no expiry
and no window end is due, and the control message is chosen (R138, R141). -/
structure State.Settled (s : State) : Prop where
  frame       : s.inFrame = true
  application : s.applicationDue = false
  expiry      : ∀ i l, s.lease? i = some l → l.expiry = some s.chain.counter → l.mark ≠ none
  window      : s.windowDue = false
  control     : s.chain.frame.control ≠ none

/-- The frame has come to its response part: nothing of its start is left and the DOWN region has been
driven (R136, R149). -/
structure State.AtResponse (s : State) : Prop where
  settled : s.Settled
  driven  : s.chain.frame.downRegion ≠ none

/-- The frame's control message, while its response word has not been taken (R146). -/
def State.unanswered (s : State) : Option Message :=
  if s.chain.frame.responded then none else s.chain.frame.control.map Control.message

/-- The frame has come to its UP region: it awaits no response word (R136, R146). -/
structure State.AtUpRegion (s : State) : Prop where
  response : s.AtResponse
  taken    : s.unanswered = none ∨ s.unanswered = some .idle ∨ s.unanswered = some .switch

/-- The response word has been taken. -/
def State.responseTaken (s : State) : State := s.setFrame { s.chain.frame with responded := true }

/-- Some notice of a member is OPEN while the publisher is NOTIFYING: a notice is due (R86). -/
def State.NoticeWaits (s : State) : Prop :=
  ∃ set, s.publisher.stage = .notifying set ∧ ∃ n ∈ set.notices, n.acked = false ∧ n.position ≠ 0

/-- How many positions the rotation goes up from one position to another, wrapping from 15 to 1 (R86). -/
def stepsUp (r p : Position) : Nat := (p.val + 15 - r.val) % 15

/-- The notice that the rotation gives from a position on: OPEN, of the nearest position that holds an OPEN one,
with the lowest delta index there (R86). -/
def ChangeSet.Gives (set : ChangeSet) (r : Position) (n : Notice) : Prop :=
  n ∈ set.notices ∧ n.acked = false ∧ n.position ≠ 0 ∧
    ∀ m ∈ set.notices, m.acked = false → m.position ≠ 0 →
      stepsUp r n.position < stepsUp r m.position ∨ (m.position = n.position ∧ n.delta ≤ m.delta)

/-- The commands take the device from one state to another, one after the other. -/
def State.Runs : List Instr → State → State → Prop
  | [], s, t => s = t
  | c :: cs, s, t => ∃ u, exec c s = .next u ∧ State.Runs cs u t

/-- A staged configuration or a STAGED retirement mark stands on some lease (R77). -/
def State.SomethingStaged (s : State) : Prop :=
  ∃ i l, s.lease? i = some l ∧ (l.staged ≠ none ∨ ∃ cause, l.mark = some ⟨cause, .staged⟩)

/-- The loss of a position takes another out of JOINED or ADMITTING (R124). -/
def State.Swept (s : State) (k p : Position) : Prop :=
  k ≤ p ∧ ((s.member p).state = .joined ∨ (s.member p).state = .admitting)

/-- The run of bits from `first` on holds an even number of ones among `n` bits (R24). -/
def EvenOnes {m : Nat} (bits : BitVec m) (first n : Nat) : Prop :=
  ((List.range n).countP fun k => bits.getMsbD (first + k)) % 2 = 0

/-! ## The laws -/

/-- A configuration of a lease (R7, R8). -/
structure Configuration.Lawful (d : Direction) (source : Position) (c : Configuration) : Prop where
  count  : 1 ≤ c.count ∧ c.count ≤ 8
  placed : c.placement.isSome = true ↔ c.listeners ≠ 0
  side   : ∀ p : Position, hasListener c.listeners p → onSide d source p
  within : ∀ o, c.placement = some o → o + c.cost ≤ 440

/-- A lease record: its configurations (R7, R8), its mark against its sealed change (R13, R19), its term
against its expiry frame and its owner (R6, R100), and its stream (R10). -/
structure Lease.Lawful (l : Lease) : Prop where
  source   : l.direction = .up → l.source ≠ 0
  configs  : ∀ c ∈ l.configurations, c.Lawful l.direction l.source
  retiring : l.sealed = some .retirement ↔ l.state = .going
  going    : l.state = .going → l.staged = none
  expiry   : l.expiry = none ↔ l.term = 0
  standing : l.term = 0 → l.owner = 0
  stream   : l.stream ≠ 0

/-- Every lease is lawful, and no two share a stream (R7, R8, R10, R13). -/
structure State.TableLawful (s : State) : Prop where
  leases  : ∀ i l, s.lease? i = some l → l.Lawful
  streams : ∀ i j l m, s.lease? i = some l → s.lease? j = some m → l.stream = m.stream → i = j

/-- The claims of distinct leases are apart, so are their active placements, and a sealed change stands only
on a lease that the set in flight names (R19, R30). -/
structure State.LayoutLawful (s : State) : Prop where
  claims : ∀ i j l m, i ≠ j → s.lease? i = some l → s.lease? j = some m → l.direction = m.direction →
    ∀ a ∈ l.claims, ∀ b ∈ m.claims, a.Apart b
  active : ∀ i j l m, i ≠ j → s.lease? i = some l → s.lease? j = some m → l.direction = m.direction →
    ∀ a b, l.active.run? l.direction l.source = some a → m.active.run? m.direction m.source = some b → a.Apart b
  named  : ∀ i l, s.lease? i = some l → l.sealed ≠ none →
    ∃ set, s.publisher.stage.set? = some set ∧ set.namesIndex i = true

/-- The lease reserves the channel (R11). -/
def Lease.Reserves (l : Lease) (c : Nat) : Prop :=
  ∃ b, l.base = some b ∧ b.val ≤ c ∧ c < b.val + l.largestCount

/-- Reserved channels lie within 0 to 31, and no channel is reserved by two leases (R11, R61). -/
structure State.ChannelsLawful (s : State) : Prop where
  within : ∀ i l c, s.lease? i = some l → l.Reserves c → c < 32
  apart  : ∀ i j l m c, s.lease? i = some l → s.lease? j = some m → l.Reserves c → m.Reserves c → i = j

/-- Which state may stand directly above which (R114). -/
def MemberState.MayPrecede : MemberState → MemberState → Prop
  | .joined, _ => True
  | .admitting, n => n = .vacant
  | .lost, n => n = .lost ∨ n = .vacant
  | .vacant, n => n = .vacant

/-- The three runs (R114), and what the frame's open call or ASSIGN and a waiting ASSIGN rest on (R116, R120, R143). -/
structure State.MembersLawful (s : State) : Prop where
  runs     : ∀ p : Position, p ≠ 0 → p ≠ 15 → (s.member p).state.MayPrecede (s.member (p + 1)).state
  called   : ∀ t, s.unanswered = some (.openCall t) →
    t ≠ 0 ∧ (s.member t).state = .vacant ∧ (t = 1 ∨ s.joined (t - 1))
  assigned : ∀ p, s.unanswered = some (.addressed .assign p) → (s.member p).state = .admitting
  waiting  : ∀ p, .assign p ∈ s.chain.delivery → (s.member p).state = .admitting

/-- Queue entries and pending answers are of JOINED members, at most one of the two for each, and the
delivery list holds exactly the pending answers and the ADMITTING position, each once (R43, R131, R143). -/
structure State.QueueLawful (s : State) : Prop where
  joined     : ∀ e ∈ s.engine.queue, s.joined e.position = true
  once       : (s.engine.queue.map QueueEntry.position).Nodup
  answers    : ∀ p, (s.member p).answer ≠ none → s.joined p = true ∧ s.queued p = false
  answerDue  : ∀ p, .answer p ∈ s.chain.delivery ↔ (s.member p).answer ≠ none
  assignDue  : ∀ p, .assign p ∈ s.chain.delivery ↔ (s.member p).state = .admitting
  deliveries : s.chain.delivery.Nodup

/-- The position is 0, or holds a member that is JOINED or LOST (R129). -/
def State.Holds (s : State) (p : Position) : Prop :=
  p = 0 ∨ (s.member p).state = .joined ∨ (s.member p).state = .lost

/-- Leases name only positions that hold the head or a member, and no member's limit is exceeded (R51, R129). -/
structure State.NamesLawful (s : State) : Prop where
  source    : ∀ i l, s.lease? i = some l → s.Holds l.source
  listeners : ∀ i l p, s.lease? i = some l → l.listensAt p = true → s.Holds p
  sources   : ∀ p, p ≠ 0 → s.Holds p → s.sourceCount p ≤ s.sourceLimit p
  listening : ∀ p, p ≠ 0 → s.Holds p → s.listenCount p ≤ s.listenLimit p

/-- The delta says what its lease's sealed change is (R82, R83). -/
def Delta.Agrees (d : Delta) (l : Lease) : Prop :=
  match d.kind with
  | .config c => l.sealed = some (.config c)
  | .retire cause => l.sealed = some .retirement ∧ l.mark = some ⟨cause, .sealed⟩

/-- The publisher and the set in flight (R74 to R76, R82 to R84, R88, R89). -/
structure State.PublisherLawful (s : State) : Prop where
  running   : s.publisher.stage ≠ .idle → s.chain.state = .running
  batching  : ∀ f, s.publisher.stage = .batching f → s.publisher.mode = .auto
  number    : ∀ set, s.publisher.stage.set? = some set → set.number = s.publisher.epoch + 1
  filled    : ∀ set, s.publisher.stage.set? = some set → set.deltas ≠ []
  ascending : ∀ set, s.publisher.stage.set? = some set → set.deltas.Pairwise fun a b => a.handle.index < b.handle.index
  agrees    : ∀ set, s.publisher.stage.set? = some set → ∀ d ∈ set.deltas,
    ∃ l, s.leases[d.handle.index] = ⟨d.handle.generation, some l⟩ ∧ d.Agrees l
  openAre   : ∀ set, s.publisher.stage.set? = some set → ∀ n ∈ set.notices, n.acked = false → s.joined n.position = true
  telling   : ∀ set, s.publisher.stage = .notifying set → ∃ n ∈ set.notices, n.acked = false
  told      : ∀ set f, s.publisher.stage = .switching set f → ∀ n ∈ set.notices, n.acked = true

/-- A stopped chain: no frame, no member, no waiting work, no layout, and a silent Local Port
(R22, R74, R98, R113, R133, R135, R154). -/
structure State.Quiet (s : State) : Prop where
  publisher : s.publisher.stage = .idle
  queue     : s.engine.queue = []
  members   : ∀ p, (s.member p).state = .vacant ∧ (s.member p).identity = none ∧ (s.member p).misses = 0
    ∧ (s.member p).answer = none
  limits    : s.members.missLimit = none ∧ s.chain.lead = none
  control   : s.chain.delivery = [] ∧ s.chain.alternation = none ∧ s.chain.pollMark = none
  frame     : s.chain.frame = FrameProgress.none
  port      : s.localPort = LocalPort.silent
  leases    : ∀ i l, s.lease? i = some l → l.source = 0 ∧ l.direction = .down ∧ l.active.listeners = 0
    ∧ l.active.placement = none ∧ l.sealed = none ∧ l.staged = none ∧ l.mark = none

/-- While the chain is STOPPED the device is quiet. -/
def State.StoppedLawful (s : State) : Prop := s.chain.state = .stopped → s.Quiet

/-- An item is present only while it holds a reason, and the device item holds no reason but its two (R163). -/
structure State.AttentionLawful (s : State) : Prop where
  lease  : ∀ (i : LeaseIndex) it, s.attention.leases[i] = some it → it.reasons ≠ 0
  device : s.attention.device &&& ~~~(Reason.setApplied ||| Reason.linkLost) = 0

/-- An answer read that took its content from the buffer stands with the answer still in the buffer (R176, R178). -/
def State.PortLawful (s : State) : Prop :=
  ∀ frame, s.hostPort.select = .answering frame true → ∃ r, s.hostPort.slot = .answered r frame

/-- Every law at once. -/
structure State.Lawful (s : State) : Prop where
  port      : s.PortLawful
  table     : s.TableLawful
  layout    : s.LayoutLawful
  channels  : s.ChannelsLawful
  members   : s.MembersLawful
  queue     : s.QueueLawful
  names     : s.NamesLawful
  publisher : s.PublisherLawful
  stopped   : s.StoppedLawful
  attention : s.AttentionLawful

end Sys2Proof.Machine
end

