-- ==== Sys2Proof/Certificates/Slice0/Obligations.lean ====
section
/-! DEFINITION. The statements for the provers. -/

open Sys2Proof Sys2Proof.Machine

/-! ## The queue of commands and reset -/

/-- A step takes the command at the front of the queue and runs it with the queue's rest; on an empty queue
the device idles. (The model's choice, log entry 1.) -/
def Obligations.StepTakesTheFrontCommand : Prop :=
  ∀ (c : Instr) (rest : List Instr) (s : State),
    step { s with pending := c :: rest } = exec c { s with pending := rest }
      ∧ step { s with pending := [] } = .next { s with pending := [] }

/-- Every command completes in every state and leaves the queue of commands as it is. (No event that the manual
describes stops the device; the queue is the model's own, log entry 1.) -/
def Obligations.EveryCommandCompletes : Prop :=
  ∀ (c : Instr) (s : State), ∃ t, exec c s = .next t ∧ t.pending = s.pending

/-- The values that the rules give each block after device reset (R1, R27, R43, R44, R74, R113, R133, R154,
R163, R171, R182). -/
def Obligations.ResetLeavesTheGivenValues : Prop :=
  (∀ i : LeaseIndex, State.reset.leases[i] = ⟨0, none⟩)
  ∧ (∀ n, State.reset.streamMap n = none) ∧ (∀ c, State.reset.channelMap c = none)
  ∧ (∀ d hop, State.reset.planningMap d hop = [])
  ∧ State.reset.engine = ⟨[], .host⟩
  ∧ State.reset.publisher = ⟨.auto, 16, 0, .idle⟩
  ∧ (∀ p, State.reset.member p = ⟨.vacant, none, none, 0, none⟩)
  ∧ State.reset.members.admission = .openMode ∧ State.reset.members.lastOpenCall = none
  ∧ State.reset.members.missLimit = none
  ∧ State.reset.chain.state = .stopped ∧ State.reset.chain.counter = 0 ∧ State.reset.chain.rate = .r48000
  ∧ State.reset.chain.lead = none ∧ State.reset.chain.delivery = [] ∧ State.reset.chain.alternation = none
  ∧ State.reset.chain.pollMark = none
  ∧ (∀ c : Channel, State.reset.localPort.input[c] = ⟨0, false⟩ ∧ State.reset.localPort.sending[c] = 0
      ∧ State.reset.localPort.gathering[c] = 0)
  ∧ State.reset.localPort.lfs = false ∧ State.reset.localPort.lsdo = false
  ∧ State.reset.attention.items = 0 ∧ State.reset.attn = false
  ∧ State.reset.hostPort.slot = .empty ∧ State.reset.statusByte = 0

/-- DEVICE_RESET takes every block to its reset values in one event, whatever the device does, and marks a
select period in progress as one to be ignored; until RESET_END and the next rise of HCS_N the port takes no
transaction, and a period that an answer read begins meanwhile stays ignored to its end (R182; how the device stands
in a reset, and that the queue of commands stays, are the model's choices, log entries 1 and 2). -/
def Obligations.DeviceResetTakesEveryBlock : Prop :=
  ∀ s : State,
    exec .deviceReset s = .next { State.reset with
      inReset := true, pending := s.pending
      hostPort := { State.reset.hostPort with select := if s.hostPort.select = .high then .high else .ignored } }
    ∧ exec .resetEnd s = .next { s with inReset := false }
    ∧ (s.inReset = true ∨ s.hostPort.select = .ignored →
        (∀ frame stray, exec (.requestWrite frame stray) s = .next { s with hostPort := { s.hostPort with select := .high } })
        ∧ (∀ bits, exec (.answerRead (.finish bits)) s = .next { s with hostPort := { s.hostPort with select := .high } })
        ∧ exec (.answerRead .selector) s = .next { s with hostPort := { s.hostPort with select := .ignored } }
        ∧ exec .statusRead s = .next { s with hostPort := { s.hostPort with select := .high } }
        ∧ ∀ b, b ≠ 0x1D → b ≠ 0x2E → b ≠ 0x3B →
          exec (.unknownSelector b) s = .next { s with hostPort := { s.hostPort with select := .high } })
    ∧ (s.inReset = true → exec .selectPeriodStart s = .next { s with hostPort := { s.hostPort with select := .ignored } })

/-! ## The host port -/

/-- A request write is examined at the end of its select period: a frame of 3 to 15 whole bytes whose last is
the CRC-8 of the others is accepted into an empty slot and refused with SLOT_FULL by an occupied one, and any
other frame sets CHECK_ERROR; nothing else changes (R173, R174, R175). -/
def Obligations.RequestWriteIsAcceptedOrRefused : Prop :=
  ∀ (s : State) (frame : List Byte) (stray : Fin 8), s.inReset = false → s.hostPort.select ≠ .ignored →
    let port : HostPort := { s.hostPort with select := .high, hsdo := s.opening }
    (∀ command tag params, frame = withCrc (command :: tag :: params) → params.length ≤ 12 → stray = 0 →
      (s.hostPort.slot = .empty →
        exec (.requestWrite frame stray) s = .next { s with hostPort := { port with slot := .waiting ⟨command, tag, params⟩ } })
      ∧ (s.hostPort.slot ≠ .empty →
        exec (.requestWrite frame stray) s = .next { s with hostPort := { port with slotFull := true } }))
    ∧ (stray ≠ 0 ∨ frame.length < 3 ∨ 15 < frame.length ∨ frame.getLast? ≠ some (crc8 frame.dropLast) →
      exec (.requestWrite frame stray) s = .next { s with hostPort := { port with checkError := true } })

/-- An answer read fixes its content when its selector is decoded, and at the end of the period it releases
the answer exactly when it carried one and every bit of it was clocked out (R178). That an end which no selector
precedes opens the period and takes both moments is the model's choice, log entry 12. -/
def Obligations.AnswerReadReleasesAWholeAnswer : Prop :=
  ∀ (s : State) (bits : Nat), s.inReset = false →
    (s.hostPort.select ≠ .ignored →
      (∀ r a, s.hostPort.slot = .answered r a →
        exec (.answerRead .selector) s = .next { s with hostPort := { s.hostPort with
          select := .answering a true, hsdo := s.opening ++ a } })
      ∧ ((∀ r a, s.hostPort.slot ≠ .answered r a) →
        exec (.answerRead .selector) s = .next { s with hostPort := { s.hostPort with
          select := .answering [0, 0, 0, 0] false, hsdo := s.opening ++ [0, 0, 0, 0] } }))
    ∧ (∀ frame fromBuffer, s.hostPort.select = .answering frame fromBuffer →
        exec (.answerRead (.finish bits)) s = .next { s with hostPort := { s.hostPort with
          select := .high
          slot := if fromBuffer = true ∧ 8 * frame.length ≤ bits then .empty else s.hostPort.slot } })
    ∧ (s.hostPort.select = .high ∨ s.hostPort.select = .low →
        ∀ t, exec (.answerRead .selector) s = .next t →
          exec (.answerRead (.finish bits)) s = exec (.answerRead (.finish bits)) t)

/-- A status read gives the status byte and then clears the two sticky flags; a byte that names no transaction
sets CHECK_ERROR; the fall of HCS_N captures the status byte and clears nothing (R173, R180). -/
def Obligations.StatusReadClearsTheStickyFlags : Prop :=
  ∀ s : State, s.inReset = false →
    (s.hostPort.select ≠ .ignored →
      exec .statusRead s = .next { s with hostPort := { s.hostPort with
        select := .high, hsdo := s.opening ++ [s.statusByte], checkError := false, slotFull := false } }
      ∧ ∀ b, b ≠ 0x1D → b ≠ 0x2E → b ≠ 0x3B →
        exec (.unknownSelector b) s = .next { s with hostPort := { s.hostPort with
          select := .high, hsdo := s.opening, checkError := true } })
    ∧ exec .selectPeriodStart s = .next { s with hostPort := { s.hostPort with select := .low, hsdo := [s.statusByte] } }

/-- The port status byte, bit by bit, with the manual's example DCh and 00h after device reset; both bytes of a
status read have it; ATTN and the ATTENTION flag are high exactly while the attention set holds an item, also
across a chain stop (R192, R171). -/
def Obligations.StatusByteLayout : Prop :=
  (∀ s : State,
    (s.statusByte.getLsbD 7 = true ↔ s.hostPort.slot ≠ .empty)
    ∧ (s.statusByte.getLsbD 6 = true ↔ ∃ r a, s.hostPort.slot = .answered r a)
    ∧ (s.statusByte.getLsbD 5 = true ↔ s.attention.HoldsAnItem)
    ∧ (s.attn = true ↔ s.attention.HoldsAnItem)
    ∧ (s.statusByte.getLsbD 4 = true ↔ s.chain.state = .running)
    ∧ s.statusByte.getLsbD 3 = s.hostPort.checkError
    ∧ s.statusByte.getLsbD 2 = s.hostPort.slotFull
    ∧ s.statusByte.getLsbD 1 = false ∧ s.statusByte.getLsbD 0 = false
    ∧ (∀ r a, s.hostPort.slot = .answered r a → s.hostPort.checkError = true → s.hostPort.slotFull = true →
        s.chain.state = .running → ¬s.attention.HoldsAnItem → s.statusByte = 0xDC)
    ∧ (s.inReset = false → s.hostPort.select = .high →
        ∀ t, exec .statusRead s = .next t → t.hostPort.hsdo = [s.statusByte, s.statusByte])
    ∧ (∀ t, exec .chainStop s = .next t → t.attn = s.attn))
  ∧ State.reset.attn = false ∧ State.reset.statusByte = 0
  ∧ (∀ t, exec .selectPeriodStart State.reset = .next t → t.hostPort.hsdo = [0])

/-- Every step keeps an answer read that took its content from the buffer together with the answer in the buffer,
and from every such state the request slot changes only so: from empty to waiting by a request write, from waiting
to answered by the taking of that request, from answered to empty by the end of an answer read, and to empty by
device reset (R176); CHECK_ERROR and SLOT_FULL, once set, are cleared by a status read and by device reset alone
(R180, R182). -/
def Obligations.SlotAndStickyFlagsRound : Prop :=
  (∀ s t : State, s.PortLawful → step s = .next t → t.PortLawful)
  ∧ ∀ (c : Instr) (s t : State), s.PortLawful → exec c s = .next t → c ≠ .deviceReset →
    (t.hostPort.slot = s.hostPort.slot
      ∨ (∃ frame stray r, c = .requestWrite frame stray ∧ s.hostPort.slot = .empty ∧ t.hostPort.slot = .waiting r)
      ∨ (∃ r a, s.hostPort.slot = .waiting r ∧ t.hostPort.slot = .answered r a ∧ t.engine.turn = .member)
      ∨ (∃ bits r a, c = .answerRead (.finish bits) ∧ s.hostPort.slot = .answered r a ∧ t.hostPort.slot = .empty))
    ∧ (c ≠ .statusRead → (s.hostPort.checkError = true → t.hostPort.checkError = true)
        ∧ (s.hostPort.slotFull = true → t.hostPort.slotFull = true))

/-! ## The check byte -/

/-- The check byte of a run of bytes is the remainder of the run, followed by eight zero bits, on division by
x^8 + x^2 + x + 1 (R185); 01h gives 07h and three zero bytes give 00h. -/
def Obligations.CheckByteIsThePolynomialRemainder : Prop :=
  (∀ bs : List Byte, ∃ q : Polynomial (ZMod 2),
    messagePolynomial bs * Polynomial.X ^ 8
      = q * (Polynomial.X ^ 8 + Polynomial.X ^ 2 + Polynomial.X + 1) + bytePolynomial (crc8 bs))
  ∧ crc8 [0x01] = 0x07 ∧ crc8 [0, 0, 0] = 0
/-! ## Taking requests -/

/-- A waiting host request is answered exactly once, by its own command: the slot becomes answered with a frame
that echoes tag and command, the turn passes to the members, and a refusal changes nothing else; a code that names
no request, and parameters that are not of the form R190 gives the code, are INVALID. Another request's command leaves the device as it is, and so does every request command while
none may be taken (R42, R44, R45, R46, R69, R177, R190, R191; for a command whose event is not due, log entry 3). -/
def Obligations.HostRequestsAreAnsweredOnce : Prop :=
  (∀ (s : State) (code tag : Byte) (ps : List Byte), s.HostAsks code tag ps →
    (∃ t st res, exec (hostCommand code) s = .next t ∧ st ≠ .none
      ∧ t.hostPort = { s.hostPort with
          slot := .answered ⟨code, tag, ps⟩ (withCrc ([st.code.zeroExtend 8, tag, code] ++ res)) }
      ∧ t.engine.turn = .member
      ∧ (st = .done ∨ st = .staged → res.length = resultLength code)
      ∧ (st ≠ .done → st ≠ .staged → res = [] ∧ t = s.hostAnswered code tag ps st []))
    ∧ (code = 0 ∨ 21 ≤ code.toNat → exec .unknownCommand s = .next (s.hostAnswered code tag ps .invalid []))
    ∧ (¬HostFormed code ps → exec (hostCommand code) s = .next (s.hostAnswered code tag ps .invalid []))
    ∧ ∀ other, hostCommand other ≠ hostCommand code → exec (hostCommand other) s = .next s)
  ∧ ∀ s : State, (∀ code tag ps, ¬s.HostAsks code tag ps) → ∀ code, exec (hostCommand code) s = .next s

/-- A member request at the head of the queue is answered exactly once, by its own command: the entry leaves the
queue, the turn passes to the host, the answer with its OVERRUN flag is the sender's pending answer and the
last delivery, and a refusal changes nothing else; operation 0, a width code that names no width and a stream of 0 are
INVALID. Another operation's command, or one with nothing to take, leaves the device as it is (R43, R44, R45, R46, R70,
R143, R188; log entry 3). -/
def Obligations.MemberRequestsAreAnsweredOnce : Prop :=
  (∀ (s : State) (e : QueueEntry) (rest : List QueueEntry), s.MemberAsks e rest →
    (∃ t st h res, exec (memberCommand e.operation) s = .next t ∧ st ≠ .none
      ∧ t.engine = ⟨rest, .host⟩
      ∧ (e.position ≠ 0 → (t.member e.position).answer = some ⟨e.operation, st, e.overrun, h, res⟩)
      ∧ t.chain.delivery = s.chain.delivery ++ [.answer e.position]
      ∧ (st ≠ .done → st ≠ .staged → res = 0 ∧ t = s.memberAnswered e rest e.operation st h 0
          ∧ h = if e.operation = 0 ∨ e.operation = 1 ∨ e.operation = 7 then ⟨0, 0⟩ else e.handle))
    ∧ (e.operation = 0 → exec .memberOpNone s = .next (s.memberAnswered e rest 0 .invalid ⟨0, 0⟩ 0))
    ∧ (¬MemberFormed e.operation e.payload → exec (memberCommand e.operation) s = .next
        (s.memberAnswered e rest e.operation .invalid (if e.operation = 2 then e.handle else ⟨0, 0⟩) 0))
    ∧ ∀ other, other ≠ e.operation → exec (memberCommand other) s = .next s)
  ∧ ∀ s : State, (∀ e rest, ¬s.MemberAsks e rest) → ∀ op, exec (memberCommand op) s = .next s

/-- The target and lease-state steps of every request that names a lease by handle: STALE_HANDLE when the entry
is FREE or of another generation, GONE for a GOING lease unless the request is a QUERY, and GONE for a RETIRING
lease unless it is a RETIRE, a RENEW or a QUERY; nothing but the answer changes (R2, R47, R48). -/
def Obligations.TargetAndLeaseStateSteps : Prop :=
  ∀ (s : State) (h : Handle),
    (∀ code tag ps, s.HostAsks code tag ps → HostNames h code ps →
      ((∀ l, s.leases[h.index] ≠ ⟨h.generation, some l⟩) →
        exec (hostCommand code) s = .next (s.hostAnswered code tag ps .staleHandle []))
      ∧ (∀ l, s.Names h l .going → code ≠ 9 →
        exec (hostCommand code) s = .next (s.hostAnswered code tag ps .gone []))
      ∧ (∀ l, s.Names h l .retiring → code ≠ 5 → code ≠ 6 → code ≠ 9 →
        exec (hostCommand code) s = .next (s.hostAnswered code tag ps .gone [])))
    ∧ ∀ p op payload overrun rest, s.MemberAsks ⟨p, payload, overrun⟩ rest → MemberNames h op payload →
      ((∀ l, s.leases[h.index] ≠ ⟨h.generation, some l⟩) →
        exec (memberCommand op) s = .next (s.memberAnswered ⟨p, payload, overrun⟩ rest op .staleHandle h 0))
      ∧ (∀ l, s.Names h l .going →
        exec (memberCommand op) s = .next (s.memberAnswered ⟨p, payload, overrun⟩ rest op .gone h 0))
      ∧ (∀ l, s.Names h l .retiring → op ≠ 5 → op ≠ 6 →
        exec (memberCommand op) s = .next (s.memberAnswered ⟨p, payload, overrun⟩ rest op .gone h 0))

/-- The rights step for a member m: SHAPE and LISTEN from one that is not the owner and finds the flag clear,
RETIRE from one that is not the owner, and RENEW from one that is neither owner nor source are DENIED; QUIT from
one that is no listener of the latest configuration is INVALID; nothing but the answer changes (R49). -/
def Obligations.RightsStepForMembers : Prop :=
  ∀ (s : State) (h : Handle) (l : Lease) (p : Position) (op : BitVec 3) (payload : BitVec 40) (overrun : Bool)
    (rest : List QueueEntry), p ≠ 0 → s.MemberAsks ⟨p, payload, overrun⟩ rest → MemberNames h op payload →
    (s.Names h l .live ∨ (s.Names h l .retiring ∧ (op = 5 ∨ op = 6))) →
    (op = 2 → l.owner ≠ p → l.shapeOpen = false →
      exec .memberShape s = .next (s.memberAnswered ⟨p, payload, overrun⟩ rest 2 .denied h 0))
    ∧ (op = 3 → l.owner ≠ p → l.listenOpen = false →
      exec .listen s = .next (s.memberAnswered ⟨p, payload, overrun⟩ rest 3 .denied h 0))
    ∧ (op = 4 → hasListener l.latest.listeners p = false →
      exec .quit s = .next (s.memberAnswered ⟨p, payload, overrun⟩ rest 4 .invalid h 0))
    ∧ (op = 5 → l.owner ≠ p →
      exec .memberRetire s = .next (s.memberAnswered ⟨p, payload, overrun⟩ rest 5 .denied h 0))
    ∧ (op = 6 → l.owner ≠ p → l.source ≠ p →
      exec .memberRenew s = .next (s.memberAnswered ⟨p, payload, overrun⟩ rest 6 .denied h 0))

/-! ## CREATE -/

/-- The lease that a CREATE makes: LIVE, unplaced, its term counted from the frame counter as it stands (R6, R12, R53, R101). -/
def Obligations.CreateMakesALease : Prop :=
  ∀ (s : State) (f : CreateFields), f.stream ≠ 0 → 1 ≤ f.count → f.count ≤ 8 →
    let made : Position → Lease := fun owner =>
      { stream := f.stream, owner, source := f.source, direction := f.direction
        listenOpen := f.listenOpen, shapeOpen := f.shapeOpen, term := f.term
        expiry := if f.term = 0 then none else some (s.chain.counter + f.term.zeroExtend 32 * 64)
        active := ⟨f.width, f.count, 0, none⟩, sealed := none, staged := none, mark := none
        base := f.base, heard := false, parityFaults := 0 }
    (∀ tag, s.HostAsks 1 tag (createParams f) → s.CreateAllowed 0 f →
      ((∀ i, s.lease? i ≠ none) →
        exec .create s = .next (s.hostAnswered 1 tag (createParams f) .tableFull []))
      ∧ ∀ i, s.LowestFree i →
        (f.listeners = 0 →
          exec .create s = .next ((s.withLease i (made 0)).hostAnswered 1 tag (createParams f) .done
            ((s.handleOf i).bytes ++ [0x01, 0xFF])))
        ∧ (f.listeners ≠ 0 → ∀ o, s.PlacedAt i f.direction f.source ⟨f.width, f.count, f.listeners, none⟩ none o →
          exec .create s = .next
            ((s.withLease i { made 0 with staged := some ⟨f.width, f.count, f.listeners, some o⟩ }).noteStaged.hostAnswered
              1 tag (createParams f) .staged ((s.handleOf i).bytes ++ offsetBytes (some o))))
        ∧ (f.listeners ≠ 0 → (∀ o, ¬s.FitsAt i f.direction f.source ⟨f.width, f.count, f.listeners, none⟩ o) →
          exec .create s = .next (s.hostAnswered 1 tag (createParams f) .noRoom [])))
    ∧ ∀ overrun unread rest, f.listeners = 0 → f.base = none →
      s.MemberAsks ⟨f.source, createPayload f unread, overrun⟩ rest → s.CreateAllowed f.source f →
      ((∀ i, s.lease? i ≠ none) →
        exec .memberCreate s = .next
          (s.memberAnswered ⟨f.source, createPayload f unread, overrun⟩ rest 1 .tableFull ⟨0, 0⟩ 0))
      ∧ ∀ i, s.LowestFree i →
        exec .memberCreate s = .next
          (((s.withLease i (made f.source)).raiseLease i Reason.memberAction).memberAnswered
            ⟨f.source, createPayload f unread, overrun⟩ rest 1 .done (s.handleOf i) ((511 : BitVec 9) ++ (0 : BitVec 13)))

/-- The refusals of a CREATE, from the host or from a member, in the order of the meaning step: an unusable position or
a wrong side, a stream in the map, a binding that cannot be used or channels that are not free, a member's standing
term, and the limits (R50, R51, R54, R100, R157). -/
def Obligations.CreateRefusalsInOrder : Prop :=
  ∀ (s : State) (f : CreateFields), f.stream ≠ 0 → 1 ≤ f.count → f.count ≤ 8 →
    let usable := (f.source = 0 ∨ s.joined f.source) ∧ ∀ p, hasListener f.listeners p → p = 0 ∨ s.joined p
    let sides := (f.direction = .up → f.source ≠ 0) ∧ ∀ p, hasListener f.listeners p → onSide f.direction f.source p
    let unused := ∀ i l, s.lease? i = some l → l.stream ≠ f.stream
    let canBind := (f.direction = .down ∧ f.source = 0) ∨ (f.direction = .up ∧ hasListener f.listeners 0)
    let bound := ∀ b, f.base = some b → canBind ∧ s.ChannelsFree none b f.count
    let exceeds := (f.source ≠ 0 ∧ s.sourceLimit f.source < s.sourceCount f.source + 1)
      ∨ ∃ p, p ≠ 0 ∧ hasListener f.listeners p ∧ s.listenLimit p < s.listenCount p + 1
    let refusals := fun (owner : Position) (answered : Status → Prop) =>
      (¬usable → answered .invalid)
      ∧ (usable → ¬sides → answered .invalid)
      ∧ (usable → sides → ¬unused → answered .inUse)
      ∧ (usable → sides → unused → ∀ b, f.base = some b →
          (¬canBind ∨ 32 < b.val + f.count → answered .invalid)
          ∧ (canBind → b.val + f.count ≤ 32 → ¬s.ChannelsFree none b f.count → answered .inUse))
      ∧ (usable → sides → unused → bound → owner ≠ 0 → f.term = 0 → answered .invalid)
      ∧ (usable → sides → unused → bound → (owner ≠ 0 → f.term ≠ 0) → exceeds → answered .limit)
    (∀ tag, s.HostAsks 1 tag (createParams f) →
      refusals 0 fun st => exec .create s = .next (s.hostAnswered 1 tag (createParams f) st []))
    ∧ ∀ overrun unread rest, f.listeners = 0 → f.base = none →
      s.MemberAsks ⟨f.source, createPayload f unread, overrun⟩ rest →
      refusals f.source fun st => exec .memberCreate s = .next
        (s.memberAnswered ⟨f.source, createPayload f unread, overrun⟩ rest 1 st ⟨0, 0⟩ 0)

/-! ## Requests that build configurations -/

/-- SHAPE, from the host or from a member that may: the latest configuration with width and count replaced takes
effect at once, is staged at the offset the Placement Unit gives, or meets NO_ROOM; a bound lease is checked
against the channels that the new count would reserve, INVALID past channel 31 and IN_USE where another lease has one
(R17, R31, R33, R36, R55, R71, R158; that a change at once takes an unplaced staged configuration with it, and stays
staged behind an unplaced sealed one, is the model's inference, log entry 6; IN_USE under the law of log entry 4). -/
def Obligations.ShapeBuildsFromTheLatest : Prop :=
  ∀ (s : State) (h : Handle) (l : Lease) (w : Width) (n : Nat), s.Names h l .live → 1 ≤ n → n ≤ 8 →
    let c : Configuration := { l.latest with width := w, count := n, placement := none }
    let most := (l.adopt c).largestCount
    let refusals := fun (answered : Status → Prop) => ∀ b, l.base = some b →
      (32 < b.val + most → answered .invalid)
      ∧ (s.ChannelsLawful → b.val + most ≤ 32 → ¬s.ChannelsFree (some h.index) b most → answered .inUse)
    (∀ tag, s.HostAsks 2 tag (shapeParams h w n) →
      ((∀ b, l.base = some b → s.ChannelsFree (some h.index) b most) →
        s.NewConfiguration h.index l c fun st t o => exec .shape s = .next
          (t.hostAnswered 2 tag (shapeParams h w n) st (if st = .noRoom then [] else h.bytes ++ offsetBytes o)))
      ∧ refusals fun st => exec .shape s = .next (s.hostAnswered 2 tag (shapeParams h w n) st []))
    ∧ ∀ p unread overrun rest, s.MemberAsks ⟨p, shapePayload h w n unread, overrun⟩ rest →
      (l.owner = p ∨ l.shapeOpen = true) →
      ((∀ b, l.base = some b → s.ChannelsFree (some h.index) b most) →
        s.NewConfiguration h.index l c fun st t o => exec .memberShape s = .next
          ((if st = .noRoom then t else t.raiseLease h.index Reason.memberAction).memberAnswered
            ⟨p, shapePayload h w n unread, overrun⟩ rest 2 st h (if st = .noRoom then 0 else offsetBits o ++ (0 : BitVec 13))))
      ∧ refusals fun st => exec .memberShape s = .next
          (s.memberAnswered ⟨p, shapePayload h w n unread, overrun⟩ rest 2 st h 0)

/-- ADD_LISTENER and LISTEN: the latest configuration with one more listener is staged at the offset that the
Placement Unit gives, or meets NO_ROOM; an unusable position, the wrong side, the source or a listener already
there is INVALID, and a listen limit that would be exceeded is LIMIT (R50, R51, R56, R71). -/
def Obligations.ListenersAreAdded : Prop :=
  ∀ (s : State) (h : Handle) (l : Lease) (p : Position), s.Names h l .live →
    let c : Configuration := { l.latest with listeners := withListener l.latest.listeners p, placement := none }
    let good := (p = 0 ∨ s.joined p) ∧ onSide l.direction l.source p = true ∧ hasListener l.latest.listeners p = false
    let within := p ≠ 0 → l.listensAt p = false → s.listenCount p + 1 ≤ s.listenLimit p
    (∀ tag, s.HostAsks 3 tag (h.bytes ++ [posByte p]) →
      (good → within → s.NewConfiguration h.index l c fun st t o => exec .addListener s = .next
        (t.hostAnswered 3 tag (h.bytes ++ [posByte p]) st (if st = .noRoom then [] else h.bytes ++ offsetBytes o)))
      ∧ (¬good → exec .addListener s = .next (s.hostAnswered 3 tag (h.bytes ++ [posByte p]) .invalid []))
      ∧ (good → ¬within → exec .addListener s = .next (s.hostAnswered 3 tag (h.bytes ++ [posByte p]) .limit [])))
    ∧ ∀ unread overrun rest, s.MemberAsks ⟨p, handlePayload 3 h unread, overrun⟩ rest →
      (l.owner = p ∨ l.listenOpen = true) →
      (good → within → s.NewConfiguration h.index l c fun st t o => exec .listen s = .next
        ((if st = .noRoom then t else t.raiseLease h.index Reason.memberAction).memberAnswered
          ⟨p, handlePayload 3 h unread, overrun⟩ rest 3 st h (if st = .noRoom then 0 else offsetBits o ++ (0 : BitVec 13))))
      ∧ (¬good → exec .listen s = .next (s.memberAnswered ⟨p, handlePayload 3 h unread, overrun⟩ rest 3 .invalid h 0))
      ∧ (good → ¬within → exec .listen s = .next (s.memberAnswered ⟨p, handlePayload 3 h unread, overrun⟩ rest 3 .limit h 0))

/-- DROP_LISTENER and QUIT: the latest configuration without the position is staged, at the same offset while
listeners remain and unplaced when none do; the host's removal of a position that is no listener is INVALID
(R34, R57, R71). -/
def Obligations.ListenersAreDropped : Prop :=
  ∀ (s : State) (h : Handle) (l : Lease) (p : Position), s.Names h l .live →
    (hasListener l.latest.listeners p = false → ∀ tag, s.HostAsks 4 tag (h.bytes ++ [posByte p]) →
      exec .dropListener s = .next (s.hostAnswered 4 tag (h.bytes ++ [posByte p]) .invalid []))
    ∧ ∀ o, hasListener l.latest.listeners p = true → l.latest.placement = some o →
      let left := withoutListener l.latest.listeners p
      let kept := if left = 0 then none else some o
      let staged := (s.withLease h.index
        { l with staged := some { l.latest with listeners := left, placement := kept } }).noteStaged
      (∀ tag, s.HostAsks 4 tag (h.bytes ++ [posByte p]) →
        exec .dropListener s = .next
          (staged.hostAnswered 4 tag (h.bytes ++ [posByte p]) .staged (h.bytes ++ offsetBytes kept)))
      ∧ ∀ unread overrun rest, s.MemberAsks ⟨p, handlePayload 4 h unread, overrun⟩ rest →
        exec .quit s = .next ((staged.raiseLease h.index Reason.memberAction).memberAnswered
          ⟨p, handlePayload 4 h unread, overrun⟩ rest 4 .staged h (offsetBits kept ++ (0 : BitVec 13)))

/-! ## RETIRE and RENEW -/

/-- RETIRE of a LIVE or RETIRING lease by the host or by its owner (R14, R16, R21, R58, R71). -/
def Obligations.RetireByItsTable : Prop :=
  ∀ (s : State) (h : Handle) (l : Lease), s.Names h l .live ∨ s.Names h l .retiring →
    (∀ tag, s.HostAsks 5 tag h.bytes →
      s.Retirement h.index l 0 fun st t => exec .retire s = .next (t.hostAnswered 5 tag h.bytes st h.bytes))
    ∧ ∀ unread overrun rest, s.MemberAsks ⟨l.owner, handlePayload 5 h unread, overrun⟩ rest →
      (s.raiseLease h.index Reason.memberAction).Retirement h.index l l.owner fun st t =>
        exec .memberRetire s = .next (t.memberAnswered ⟨l.owner, handlePayload 5 h unread, overrun⟩ rest 5 st h 0)

/-- RENEW of a LIVE or RETIRING lease: by the host with a term of its own or the kept one, or by a member that is
owner or source and keeps the term; a standing term for a member's lease is INVALID; a member RENEW answered DONE
raises MEMBER_ACTION, and one answered GONE raises nothing (R104, R105, R107). -/
def Obligations.RenewByItsTable : Prop :=
  ∀ (s : State) (h : Handle) (l : Lease), s.Names h l .live ∨ s.Names h l .retiring →
    (∀ tag new, s.HostAsks 6 tag (h.bytes ++ newTermBytes new) →
      (new ≠ some 0 ∨ l.owner = 0 → s.Renewal h.index l (new.getD l.term) fun st t =>
        exec .renew s = .next
          (t.hostAnswered 6 tag (h.bytes ++ newTermBytes new) st (if st = .gone then [] else h.bytes)))
      ∧ (new = some 0 → l.owner ≠ 0 →
        exec .renew s = .next (s.hostAnswered 6 tag (h.bytes ++ newTermBytes new) .invalid [])))
    ∧ ∀ p unread overrun rest, l.owner = p ∨ l.source = p → s.MemberAsks ⟨p, handlePayload 6 h unread, overrun⟩ rest →
      s.Renewal h.index l l.term fun st t =>
        exec .memberRenew s = .next
          ((if st = .gone then t else t.raiseLease h.index Reason.memberAction).memberAnswered
            ⟨p, handlePayload 6 h unread, overrun⟩ rest 6 st h 0)

/-! ## Requests that take effect at once -/

/-- SET_RIGHTS replaces both flags of a LIVE lease, answers GONE for a RETIRING or GOING one, and the new flags
decide the rights step of every request taken after it, also of one queued before it (R60). -/
def Obligations.SetRightsReplacesBothFlags : Prop :=
  ∀ (s : State) (h : Handle) (l : Lease) (tag : Byte) (listenOpen shapeOpen : Bool),
    s.HostAsks 7 tag (h.bytes ++ [rightsByte listenOpen shapeOpen]) →
    (s.Names h l .live →
      exec .setRights s = .next ((s.withLease h.index { l with listenOpen, shapeOpen }).hostAnswered 7 tag
        (h.bytes ++ [rightsByte listenOpen shapeOpen]) .done h.bytes)
      ∧ ∀ t p, exec .setRights s = .next t → p ≠ 0 → l.owner ≠ p →
          (∀ unread overrun rest, s.engine.queue = ⟨p, handlePayload 3 h unread, overrun⟩ :: rest →
            ∃ u, exec .listen t = .next u
              ∧ ((u.member p).answer = some ⟨3, .denied, overrun, h, 0⟩ ↔ listenOpen = false))
          ∧ ∀ w n unread overrun rest, s.engine.queue = ⟨p, shapePayload h w n unread, overrun⟩ :: rest →
            ∃ u, exec .memberShape t = .next u
              ∧ ((u.member p).answer = some ⟨2, .denied, overrun, h, 0⟩ ↔ shapeOpen = false))
    ∧ (s.Names h l .retiring ∨ s.Names h l .going →
      exec .setRights s = .next (s.hostAnswered 7 tag (h.bytes ++ [rightsByte listenOpen shapeOpen]) .gone []))

/-- BIND_LOCAL on a LIVE lease: "none" removes the binding; a base is recorded when the lease can use the local
port and every channel of the range is free or its own; otherwise INVALID or IN_USE and the old binding stays
(R18, R61, R157; IN_USE under the law of log entry 4). -/
def Obligations.BindLocalMovesTheReservation : Prop :=
  (∀ (s : State) (h : Handle) (l : Lease) (tag : Byte), s.Names h l .live →
    let canBind := (l.direction = .down ∧ l.source = 0) ∨ (l.direction = .up ∧ hasListener l.latest.listeners 0)
    (s.HostAsks 8 tag (h.bytes ++ [0xFF]) →
      exec .bindLocal s = .next ((s.withLease h.index { l with base := none }).hostAnswered 8 tag (h.bytes ++ [0xFF])
        .done h.bytes))
    ∧ ∀ b : Channel, let ps := h.bytes ++ [BitVec.ofNat 8 b.val]
      s.HostAsks 8 tag ps →
      (canBind → s.ChannelsFree (some h.index) b l.largestCount →
        exec .bindLocal s = .next ((s.withLease h.index { l with base := some b }).hostAnswered 8 tag ps .done h.bytes))
      ∧ (¬canBind ∨ 32 < b.val + l.largestCount → exec .bindLocal s = .next (s.hostAnswered 8 tag ps .invalid []))
      ∧ (s.ChannelsLawful → canBind → b.val + l.largestCount ≤ 32 → ¬s.ChannelsFree (some h.index) b l.largestCount →
        exec .bindLocal s = .next (s.hostAnswered 8 tag ps .inUse [])))
  ∧ ∀ (s : State) (h : Handle) (l : Lease) (tag : Byte) (base : Option Channel),
    s.Names h l .retiring ∨ s.Names h l .going → s.HostAsks 8 tag (h.bytes ++ [baseByte base]) →
    exec .bindLocal s = .next (s.hostAnswered 8 tag (h.bytes ++ [baseByte base]) .gone [])

/-! ## Requests that read -/

/-- QUERY of a lease in any state answers the record as it stands, and with the clear flag then clears HEARD and the
parity fault count; RESOLVE answers the handle and the active shape of the lease with the stream, whatever its
state, or NOT_FOUND; neither changes anything else; the 24 bytes of the QUERY result lie as R191 gives, and that the
mark stage reads 0 without a mark is the model's choice, log entry 17 (R10, R12, R62, R63, R191). -/
def Obligations.QueryAndResolveRead : Prop :=
  (∀ (s : State) (h : Handle) (l : Lease) (tag : Byte), s.leases[h.index] = ⟨h.generation, some l⟩ →
    (s.HostAsks 9 tag (h.bytes ++ [0]) →
      exec .query s = .next (s.hostAnswered 9 tag (h.bytes ++ [0]) .done (queryResult l)))
    ∧ (s.HostAsks 9 tag (h.bytes ++ [1]) →
      exec .query s = .next ((s.withLease h.index { l with heard := false, parityFaults := 0 }).hostAnswered
        9 tag (h.bytes ++ [1]) .done (queryResult l))))
  ∧ (∀ l : Lease, QueryLayout l (queryResult l))
  ∧ ∀ (s : State) (n : Stream), n ≠ 0 →
    ((∀ i l, s.lease? i = some l → l.stream ≠ n) →
      (∀ tag, s.HostAsks 10 tag [n] → exec .resolve s = .next (s.hostAnswered 10 tag [n] .notFound []))
      ∧ ∀ p unread overrun rest, s.MemberAsks ⟨p, streamPayload n unread, overrun⟩ rest →
        exec .memberResolve s = .next (s.memberAnswered ⟨p, streamPayload n unread, overrun⟩ rest 7 .notFound ⟨0, 0⟩ 0))
    ∧ ∀ i l, s.lease? i = some l → l.stream = n → (∀ j m, s.lease? j = some m → m.stream = n → j = i) →
      (∀ tag, s.HostAsks 10 tag [n] →
        exec .resolve s = .next (s.hostAnswered 10 tag [n] .done
          ((s.handleOf i).bytes ++ [l.state.bits.zeroExtend 8, posByte l.source, l.direction.bit.zeroExtend 8]
            ++ twoBytes (l.active.width.code ++ countBits l.active.count ++ (0 : BitVec 1) ++ offsetBits l.active.placement))))
      ∧ ∀ p unread overrun rest, s.MemberAsks ⟨p, streamPayload n unread, overrun⟩ rest →
        exec .memberResolve s = .next (s.memberAnswered ⟨p, streamPayload n unread, overrun⟩ rest 7 .done (s.handleOf i)
          (l.state.bits ++ posBits l.source ++ l.direction.bit ++ l.active.width.code ++ countBits l.active.count
            ++ offsetBits l.active.placement))

/-! ## Requests on the device -/

/-- A sealing: a STAGED mark becomes SEALED with a retirement, dropping a staged configuration; a staged
configuration becomes the sealed one; the deltas are those of the leases with something staged, in ascending index
order, under the next set number; the notices are exactly those of R84, all OPEN; the publisher waits for them, or
has its switch frame when there is none (R19, R82, R83, R84, R86, R89). -/
def Obligations.SealingMakesTheSet : Prop :=
  ∀ s : State,
    let t := s.sealStaged
    (∀ i l, s.lease? i = some l →
      (∀ cause, l.mark = some ⟨cause, .staged⟩ → t.leases[i] = ⟨s.leases[i].generation,
          some { l with sealed := some .retirement, staged := none, mark := some ⟨cause, .sealed⟩ }⟩)
      ∧ (∀ c, l.mark = none → l.staged = some c →
          t.leases[i] = ⟨s.leases[i].generation, some { l with sealed := some (.config c), staged := none }⟩)
      ∧ (l.hasStaged = false → t.leases[i] = s.leases[i]))
    ∧ (∀ i, s.lease? i = none → t.leases[i] = s.leases[i])
    ∧ t = { s with leases := t.leases, publisher := { s.publisher with stage := t.publisher.stage } }
    ∧ ∃ set : ChangeSet, t.publisher.stage.set? = some set ∧ set.number = s.publisher.epoch + 1
      ∧ set.deltas.Pairwise (fun (a b : Delta) => a.handle.index < b.handle.index)
      ∧ (∀ h kind, (⟨h, kind⟩ : Delta) ∈ set.deltas ↔ ∃ l, s.leases[h.index] = ⟨h.generation, some l⟩
          ∧ ((∃ cause, l.mark = some ⟨cause, .staged⟩ ∧ kind = .retire cause)
            ∨ ∃ c, l.mark = none ∧ l.staged = some c ∧ kind = .config c))
      ∧ (∀ k p acked, (⟨k, p, acked⟩ : Notice) ∈ set.notices ↔
          acked = false ∧ p ≠ 0 ∧ s.joined p = true ∧ ∃ d l, set.deltas[k]? = some d ∧ s.lease? d.handle.index = some l
            ∧ (l.source = p ∨ hasListener l.active.listeners p = true
              ∨ ∃ c, d.kind = .config c ∧ hasListener c.listeners p = true))
      ∧ set.notices.Nodup
      ∧ (∀ p, set.rotation = some p ↔ (∃ n ∈ set.notices, n.position = p) ∧ ∀ n ∈ set.notices, p ≤ n.position)
      ∧ (set.notices ≠ [] → t.publisher.stage = .notifying set)
      ∧ (set.notices = [] → ∀ lead, s.chain.lead = some lead →
          t.publisher.stage = .switching set (s.chain.counter + BitVec.ofNat 32 lead))

/-- REPACK: NOT_RUNNING, BUSY and NO_ROOM change nothing; a plan that moves no lease is DONE with 0; otherwise every
moved lease receives its active configuration at the planned offset as its sealed one, and the deltas are theirs
in ascending order (R38, R40, R64, R97). -/
def Obligations.RepackSealsThePlan : Prop :=
  ∀ (s : State) (tag : Byte), s.HostAsks 11 tag [] →
    let free := s.publisher.stage = .idle ∧ ∀ i l, s.lease? i = some l → l.staged = none ∧ l.mark = none
    (s.chain.state = .stopped → exec .repack s = .next (s.hostAnswered 11 tag [] .notRunning []))
    ∧ (s.chain.state = .running → ¬free → exec .repack s = .next (s.hostAnswered 11 tag [] .busy []))
    ∧ (s.chain.state = .running → free →
      (s.repackPlan = none → exec .repack s = .next (s.hostAnswered 11 tag [] .noRoom []))
      ∧ ∀ plan, s.repackPlan = some plan →
        ((∀ i, movedTo plan i = none) → exec .repack s = .next (s.hostAnswered 11 tag [] .done [0]))
        ∧ ((∃ i, movedTo plan i ≠ none) →
          ∃ (t : State) (set : ChangeSet), exec .repack s = .next (t.hostAnswered 11 tag [] .staged [BitVec.ofNat 8 set.deltas.length])
            ∧ t = ({ s with leases := t.leases } : State).beginSet set.deltas
            ∧ t.publisher.stage.set? = some set ∧ set.number = s.publisher.epoch + 1
            ∧ (∀ i o l, movedTo plan i = some o → s.lease? i = some l → t.leases[i] = ⟨s.leases[i].generation,
                some { l with sealed := some (.config { l.active with placement := some o }) }⟩)
            ∧ (∀ i, movedTo plan i = none ∨ s.lease? i = none → t.leases[i] = s.leases[i])
            ∧ set.deltas.Pairwise (fun (a b : Delta) => a.handle.index < b.handle.index)
            ∧ ∀ h kind, (⟨h, kind⟩ : Delta) ∈ set.deltas ↔ ∃ o l, movedTo plan h.index = some o
                ∧ s.leases[h.index] = ⟨h.generation, some l⟩ ∧ kind = .config { l.active with placement := some o }))

/-- The REPACK plan: it holds exactly the leases with a placed active configuration, each at an offset within the
region, no two of them on a common bit of a common hop in one direction, and each at the lowest offset free of
those that the order puts before it: cost descending, then span length descending, then index ascending. There is
no plan exactly when some lease finds no offset free of those that the order puts before it (R39). -/
def Obligations.RepackPlanIsFirstFitInOrder : Prop :=
  let clear := fun (plan : List (PlanItem × Nat)) (a : PlanItem) (x : Nat) => x + a.config.cost ≤ 440
    ∧ ∀ b q, (b, q) ∈ plan → b.direction = a.direction → b.before a = true →
      (a.config.runAt a.direction a.source x).Apart (b.config.runAt b.direction b.source q)
  ∀ s : State,
    let takesPart := fun (a : PlanItem) => ∃ l, s.lease? a.index = some l ∧ l.active.placement ≠ none
      ∧ a.direction = l.direction ∧ a.source = l.source ∧ a.config = l.active
    (∀ plan, s.repackPlan = some plan →
      (∀ a, (∃ o, (a, o) ∈ plan) ↔ takesPart a)
      ∧ (∀ a o, (a, o) ∈ plan → ∀ b q, (b, q) ∈ plan → a.index = b.index → (a, o) = (b, q))
      ∧ ∀ a o, (a, o) ∈ plan → clear plan a o ∧ ∀ x, x < o → ¬clear plan a x)
    ∧ (s.repackPlan = none ↔ ∃ a plan, takesPart a ∧ (∀ b, (∃ q, (b, q) ∈ plan) ↔ takesPart b ∧ b.before a = true)
      ∧ (∀ b q, (b, q) ∈ plan → clear plan b q ∧ ∀ x, x < q → ¬clear plan b x) ∧ ∀ x, ¬clear plan a x)
    ∧ ∀ a b : PlanItem, a.before b = true ↔ b.config.cost < a.config.cost
      ∨ (a.config.cost = b.config.cost ∧ (b.spanLength < a.spanLength
        ∨ (a.spanLength = b.spanLength ∧ a.index < b.index)))

/-- PUBLISH: NOT_RUNNING with a stopped chain, BUSY with a set in flight, DONE with 0 and no effect when nothing is
staged, and else a sealing with the number of its deltas (R64, R79). -/
def Obligations.PublishSealsWhatIsStaged : Prop :=
  ∀ (s : State) (tag : Byte), s.HostAsks 12 tag [] →
    let anything := s.SomethingStaged
    (s.chain.state = .stopped → exec .publish s = .next (s.hostAnswered 12 tag [] .notRunning []))
    ∧ (s.chain.state = .running → s.publisher.stage.set? ≠ none → exec .publish s = .next (s.hostAnswered 12 tag [] .busy []))
    ∧ (s.chain.state = .running → s.publisher.stage.set? = none →
      (¬anything → exec .publish s = .next (s.hostAnswered 12 tag [] .done [0]))
      ∧ (anything → ∃ set : ChangeSet, s.sealStaged.publisher.stage.set? = some set
          ∧ exec .publish s = .next (s.sealStaged.hostAnswered 12 tag [] .done [BitVec.ofNat 8 set.deltas.length])))

/-- SET_PUBLISHING is answered DONE in every state and records mode and window; the batch window of an IDLE AUTO
publisher with staged changes opens at once, one of a BATCHING publisher closes for MANUAL and else keeps its seal
frame, and a set in flight is not touched (R65, R80). The recorded values survive chain stop, and device reset
restores AUTO and 16 (R65). -/
def Obligations.SetPublishingRecordsModeAndWindow : Prop :=
  (∀ (s : State) (tag : Byte) (m : PublishingMode) (w : Byte), s.HostAsks 13 tag [m.code, w] →
    let staged := s.SomethingStaged
    ∃ stage : PublisherStage, exec .setPublishing s = .next
        (({ s with publisher := ⟨m, w, s.publisher.epoch, stage⟩ } : State).hostAnswered 13 tag [m.code, w] .done [])
      ∧ (s.publisher.stage = .idle →
          (m = .auto ∧ staged ∧ s.chain.state = .running → stage = .batching (s.chain.counter + w.zeroExtend 32 + 1))
          ∧ (¬(m = .auto ∧ staged ∧ s.chain.state = .running) → stage = .idle))
      ∧ (∀ f, s.publisher.stage = .batching f → (m = .manual → stage = .idle) ∧ (m = .auto → stage = .batching f))
      ∧ (s.publisher.stage.set? ≠ none → stage = s.publisher.stage))
  ∧ (∀ s t : State, exec .chainStop s = .next t → t.publisher.mode = s.publisher.mode ∧ t.publisher.window = s.publisher.window)
  ∧ ∀ s t : State, exec .deviceReset s = .next t → t.publisher.mode = .auto ∧ t.publisher.window = 16

/-- READ_MEMBER answers the record of a position, SET_EXPECTED records or removes its expected identity, and
SET_ADMISSION records the mode, each DONE in either chain state and with no other effect; the 13 bytes of the READ_MEMBER
result lie as R191 gives, and that bits 7 to 4 of byte 1 are 0 is the model's choice, log entry 17 (R67, R115, R191). -/
def Obligations.MemberRecordRequests : Prop :=
  (∀ (m : Member) (queued : Bool) (sources listens : Nat),
    MemberLayout m queued sources listens (readMemberResult m queued sources listens))
  ∧ ∀ (s : State) (tag : Byte) (p : Position), p ≠ 0 →
    (s.HostAsks 14 tag [posByte p] →
      exec .readMember s = .next (s.hostAnswered 14 tag [posByte p] .done
        (readMemberResult (s.member p) (s.engine.queue.any fun e => e.position == p)
          (allLeases.countP fun i => (s.lease? i).any fun l => l.source == p)
          (allLeases.countP fun i => (s.lease? i).any fun l => l.configurations.any fun c => hasListener c.listeners p))))
    ∧ (∀ x a b c, s.HostAsks 15 tag (expectedParams p x [a, b, c]) →
      exec .setExpected s = .next ((s.setMember p { s.member p with expected := x }).hostAnswered 15 tag
        (expectedParams p x [a, b, c]) .done []))
    ∧ ∀ m : AdmissionMode, s.HostAsks 16 tag [m.code] →
      exec .setAdmission s = .next (({ s with members := { s.members with admission := m } } : State).hostAnswered 16 tag
        [m.code] .done [])

/-- CHAIN_START on a stopped chain records rate, miss limit and switch lead, sets frame counter and epoch to 0, empties
what the chain holds and the banks of the Local Port, and leaves the leases, the members and the attention set; on
a running chain it is BUSY and changes nothing (R66, R74, R113, R134, R154). -/
def Obligations.ChainStartBeginsAtFrameZero : Prop :=
  ∀ (s : State) (tag : Byte) (rate : Rate) (limit lead : Nat), 2 ≤ limit → limit ≤ 15 → 2 ≤ lead → lead ≤ 64 →
    let ps : List Byte := [rate.code, BitVec.ofNat 8 limit, BitVec.ofNat 8 lead]
    s.HostAsks 17 tag ps →
    (s.chain.state = .stopped → exec .chainStart s = .next (({ s with
      chain := { state := .running, counter := 0, rate, lead := some lead, delivery := [], alternation := none,
                 pollMark := none, frame := FrameProgress.none }
      members := { s.members with missLimit := some limit, lastOpenCall := none }
      publisher := { s.publisher with epoch := 0 }
      localPort := LocalPort.silent } : State).hostAnswered 17 tag ps .done []))
    ∧ (s.chain.state = .running → exec .chainStart s = .next (s.hostAnswered 17 tag ps .busy []))

/-- CHAIN_STOP on a running chain: standing leases of the head without a mark are kept unplaced, every other lease
goes FREE, nothing is raised, the set in flight and every waiting work is discarded, every position is VACANT with
its expected identity kept, and counter, rate, epoch, mode and window stay; on a stopped chain it changes nothing
(R22, R66, R98, R113, R135, R154). -/
def Obligations.ChainStopFreesOrKeeps : Prop :=
  ∀ (s : State) (tag : Byte), s.HostAsks 18 tag [] →
    (s.chain.state = .stopped → exec .chainStop s = .next (s.hostAnswered 18 tag [] .done []))
    ∧ (s.chain.state = .running → ∃ t : State, exec .chainStop s = .next (t.hostAnswered 18 tag [] .done [])
      ∧ (∀ i l, s.lease? i = some l →
          (l.term = 0 ∧ l.source = 0 ∧ l.mark = none → t.leases[i] = ⟨s.leases[i].generation, some { l with
            active := ⟨l.active.width, l.active.count, 0, none⟩, sealed := none, staged := none }⟩)
          ∧ (¬(l.term = 0 ∧ l.source = 0 ∧ l.mark = none) → t.leases[i] = ⟨s.leases[i].generation + 1, none⟩))
      ∧ (∀ i, s.lease? i = none → t.leases[i] = s.leases[i])
      ∧ (∀ p, p ≠ 0 → t.member p = { state := .vacant, identity := none, expected := (s.member p).expected, misses := 0, answer := none })
      ∧ t = { s with
          leases := t.leases
          engine := { s.engine with queue := [] }
          publisher := { s.publisher with stage := .idle }
          members := { s.members with records := t.members.records, missLimit := none }
          chain := { ChainEngine.reset with counter := s.chain.counter, rate := s.chain.rate }
          localPort := LocalPort.silent })

/-- FETCH_ATTENTION answers and removes the device item, else the lowest member item, else the lowest lease item,
else answers the empty marker; READ_STATUS answers the device's state; neither changes a lease or a member;
that bits 7 to 5 of the reasons byte are 0 is the model's choice, log entry 17 (R68, R169, R191). -/
def Obligations.AttentionAndStatusAreRead : Prop :=
  ∀ (s : State) (tag : Byte),
    (s.HostAsks 19 tag [] →
      let answered := fun (a : AttentionSet) (res : List Byte) =>
        exec .fetchAttention s = .next (({ s with attention := a } : State).hostAnswered 19 tag [] .done res)
      (s.attention.device ≠ 0 →
        answered { s.attention with device := 0 } [1, 0, 0, 0, s.attention.device.zeroExtend 8])
      ∧ (∀ k : Fin 15, s.attention.device = 0 → s.attention.members[k] ≠ 0 → (∀ j, j < k → s.attention.members[j] = 0) →
        answered { s.attention with members := s.attention.members.set k 0 }
          [2, BitVec.ofNat 8 (k.val + 1), 0, 0, s.attention.members[k].zeroExtend 8])
      ∧ (∀ (i : LeaseIndex) item, s.attention.device = 0 → (∀ k : Fin 15, s.attention.members[k] = 0) →
        s.attention.leases[i] = some item → (∀ j, j < i → s.attention.leases[j] = none) →
        answered { s.attention with leases := s.attention.leases.set i none }
          [3, BitVec.ofNat 8 i.val, BitVec.ofNat 8 i.val, item.generation.zeroExtend 8, item.reasons.zeroExtend 8])
      ∧ (s.attention.device = 0 → (∀ k : Fin 15, s.attention.members[k] = 0) →
        (∀ i : LeaseIndex, s.attention.leases[i] = none) → answered s.attention [0, 0, 0, 0, 0]))
    ∧ (s.HostAsks 20 tag [] →
      exec .readStatus s = .next (s.hostAnswered 20 tag [] .done
        ([if s.chain.state = .running then 1 else 0, s.chain.rate.code] ++ fourBytes s.chain.counter
          ++ [s.publisher.epoch,
              match s.publisher.stage with
              | .idle => 0
              | .batching _ => 1
              | .notifying _ => 2
              | .switching _ _ => 3,
              s.publisher.mode.code, s.publisher.window,
              BitVec.ofNat 8 (allLeases.countP fun i => (s.lease? i).isSome),
              BitVec.ofNat 8 s.engine.queue.length,
              BitVec.ofNat 8 ((if s.attention.device = 0 then 0 else 1)
                + (List.finRange 15).countP (fun k => s.attention.members[k] != 0)
                + allLeases.countP fun i => s.attention.leases[i].isSome)])))


/-! ## The frame -/

/-- FRAME_START: a stopped chain has none; the first frame after a chain start is frame 0; a later one takes the next
number, wrapping; and the banks of the Local Port are exchanged (R134, R138, R155, R156; that LFS is high and LSDO keeps
its level from the frame start to the first bit period is the model's choice, log entry 8, and that the capture
registers start at 0 is log entry 9's). -/
def Obligations.FrameStartOpensTheNextFrame : Prop :=
  ∀ s : State,
    let opened := fun (n : FrameNumber) => ({ s with
      chain := { s.chain with counter := n, frame := { FrameProgress.none with started := true } }
      localPort := {
        periods := 0
        capture := Vector.replicate 32 0
        input := Vector.ofFn fun c : Channel =>
          if 32 * (c.val + 1) ≤ s.localPort.periods then ⟨s.localPort.capture[c], true⟩ else ⟨0, false⟩
        sending := s.localPort.gathering
        gathering := Vector.replicate 32 0
        lfs := true
        lsdo := s.localPort.lsdo } } : State)
    (s.chain.state = .stopped → exec .frameStart s = .next s)
    ∧ (s.chain.state = .running → s.chain.frame.started = false → exec .frameStart s = .next (opened s.chain.counter))
    ∧ (s.Settled → (s.unanswered = none ∨ s.unanswered = some .idle ∨ s.unanswered = some .switch) →
        exec .frameStart s = .next (opened (s.chain.counter + 1)))

/-- What is due in a frame and has not been commanded is taken, in an order the spec allows, before what the spec places
after it: the frame-start events before the DOWN region, that before the response word, a response word that did not
come, as a missing one, before the UP region and the next frame start. While no frame of a running chain is in
progress, no event of a frame changes anything (R133, R136, R138, R141; log entry 3). -/
def Obligations.DueEventsAreTakenFirst : Prop :=
  ∀ s : State,
    (∀ lead, s.inFrame = true → s.chain.lead = some lead → 1 ≤ lead → lead ≤ 64 →
      State.Runs ([.setApplication] ++ allLeases.map .expiry ++ [.batchWindowEnd, .controlMessageChoice]) s s.finishFrameStart
      ∧ s.finishFrameStart.Settled
      ∧ exec .downRegionDrive s = exec .downRegionDrive s.finishFrameStart
      ∧ exec .downRegionDrive s = .next s.reachResponse ∧ s.reachResponse.AtResponse
      ∧ (∀ w, exec (.responseWord w) s = exec (.responseWord w) s.reachResponse)
      ∧ (∀ p, exec (.memberLoss p) s = exec (.memberLoss p) s.reachResponse
        ∧ exec (.admissionFailure p) s = exec (.admissionFailure p) s.reachResponse)
      ∧ exec (.responseWord 0) s = .next s.reachUpRegion ∧ s.reachUpRegion.AtUpRegion
      ∧ (∀ i k region, exec (.upSlotRead i k region) s = exec (.upSlotRead i k region) s.reachUpRegion)
      ∧ exec .frameStart s = exec .frameStart s.reachUpRegion)
    ∧ (s.inFrame = false →
      (∀ i, exec (.expiry i) s = .next s) ∧ exec .batchWindowEnd s = .next s ∧ exec .setApplication s = .next s
      ∧ exec .controlMessageChoice s = .next s ∧ (∀ w, exec (.responseWord w) s = .next s)
      ∧ exec .downRegionDrive s = .next s ∧ (∀ i k region, exec (.upSlotRead i k region) s = .next s)
      ∧ (∀ p, exec (.memberLoss p) s = .next s ∧ exec (.admissionFailure p) s = .next s)
      ∧ ∀ d, exec (.lbckPeriod d) s = .next s)

/-- EXPIRY of a LIVE lease whose expiry frame is the frame in progress frees it or stages a mark with cause EXPIRED,
and any other lease is not touched; BATCH_WINDOW_END in the seal frame seals what is staged, or returns the
publisher to IDLE when nothing is, and does nothing in any other frame (R16, R77, R102). -/
def Obligations.ExpiryAndWindowEnd : Prop :=
  (∀ (s : State) (i : LeaseIndex) (l : Lease), s.inFrame = true → s.lease? i = some l →
    (l.expiry = some s.chain.counter → l.mark = none →
      (l.NothingInFlight →
        exec (.expiry i) s = .next (((s.raiseLease i Reason.expired).raiseLease i Reason.retired).withFree i))
      ∧ (¬l.NothingInFlight → exec (.expiry i) s = .next
          ((s.raiseLease i Reason.expired).withLease i { l with mark := some ⟨.expired, .staged⟩ }).noteStaged))
    ∧ (l.expiry ≠ some s.chain.counter ∨ l.mark ≠ none → exec (.expiry i) s = .next s))
  ∧ ∀ (s : State) (f : FrameNumber), s.inFrame = true → s.publisher.stage = .batching f →
    (f = s.chain.counter → s.SomethingStaged → exec .batchWindowEnd s = .next s.sealStaged)
    ∧ (f = s.chain.counter → ¬s.SomethingStaged →
        exec .batchWindowEnd s = .next { s with publisher := { s.publisher with stage := .idle } })
    ∧ (f ≠ s.chain.counter → exec .batchWindowEnd s = .next s)

/-- SET_APPLICATION in the switch frame: every lease of the set takes its sealed change, leases left with nothing
placed are settled, the epoch advances by one, the set is gone, AUTO with staged changes opens a window from the
switch frame, LOST positions are checked and SET_APPLIED is raised; in any other frame nothing happens (R20, R21,
R92, R93). -/
def Obligations.SetApplicationSwitchesTheLayout : Prop :=
  ∀ (s : State) (set : ChangeSet) (f : FrameNumber), s.inFrame = true → s.publisher.stage = .switching set f →
    (f ≠ s.chain.counter → exec .setApplication s = .next s)
    ∧ (f = s.chain.counter → ∃ t : State,
      exec .setApplication s = .next (t.releaseLost.raiseDevice Reason.setApplied)
      ∧ t = { s with
          leases := t.leases
          attention := { s.attention with leases := t.attention.leases }
          publisher := { s.publisher with epoch := s.publisher.epoch + 1, stage := t.publisher.stage } }
      ∧ (s.publisher.mode = .auto ∧ t.SomethingStaged →
          t.publisher.stage = .batching (f + s.publisher.window.zeroExtend 32 + 1))
      ∧ (¬(s.publisher.mode = .auto ∧ t.SomethingStaged) → t.publisher.stage = .idle)
      ∧ (∀ i, s.lease? i = none → t.leases[i] = s.leases[i] ∧ t.attention.leases[i] = s.attention.leases[i])
      ∧ ∀ i l, s.lease? i = some l → (l.sealed ≠ none → set.namesIndex i = true) →
        let freed := t.leases[i] = ⟨s.leases[i].generation + 1, none⟩
        let silent := t.attention.leases[i] = s.attention.leases[i]
        let told := t.attention.leases[i] = raiseItem s.attention.leases[i] s.leases[i].generation Reason.retired
        let now := l.sealedConfig.getD l.active
        (∀ cause, l.sealed = some .retirement → l.mark = some ⟨cause, .sealed⟩ →
          freed ∧ (cause = .requested 0 → silent) ∧ (cause ≠ .requested 0 → told))
        ∧ (l.sealed ≠ some .retirement →
          (∀ cause, l.mark = some ⟨cause, .staged⟩ → now.placement = none → (∀ c, l.staged = some c → c.placement = none) →
            freed ∧ (cause = .requested 0 → silent) ∧ (cause ≠ .requested 0 → told))
          ∧ (∀ cause, l.mark = some ⟨cause, .staged⟩ → (now.placement ≠ none ∨ ∃ c, l.staged = some c ∧ c.placement ≠ none) →
            t.leases[i] = ⟨s.leases[i].generation, some { l with active := now, sealed := none }⟩ ∧ silent)
          ∧ (∀ c, l.mark = none → l.staged = some c → now.placement = none → c.placement = none →
            t.leases[i] = ⟨s.leases[i].generation, some { l with active := c, sealed := none, staged := none }⟩ ∧ silent)
          ∧ (l.mark = none → (∀ c, l.staged = some c → now.placement ≠ none ∨ c.placement ≠ none) →
            t.leases[i] = ⟨s.leases[i].generation, some { l with active := now, sealed := none }⟩ ∧ silent)))

/-! ## The control slot -/

/-- CONTROL_MESSAGE_CHOICE: in the switch frame it takes the due application first (R92, R141). Then, by lines 1 to 4
of the precedence: SWITCH before the switch frame; else the delivery list and the notices, taking turns by the
alternation mark while both wait; an ANSWER leaves the list with its pending answer, an ASSIGN goes to the tail, a
NOTICE is the one the rotation gives (R86, R140, R142, R143, R144). -/
def Obligations.ChoiceByPrecedence : Prop :=
  (∀ (s : State) (set : ChangeSet), s.inFrame = true → s.publisher.stage = .switching set s.chain.counter →
    ∃ t, exec .setApplication s = .next t ∧ exec .controlMessageChoice s = exec .controlMessageChoice t
      ∧ t.inFrame = true ∧ t.applicationDue = false ∧ t.chain = s.chain)
  ∧ ∀ s : State, s.inFrame = true → s.chain.frame.control = none → s.applicationDue = false →
      (∀ set f, s.publisher.stage = .switching set f → laterThan f s.chain.counter = true →
        exec .controlMessageChoice s = .next (s.send .switch (switchWord s.publisher.epoch set.number f)))
      ∧ ((∀ set f, s.publisher.stage = .switching set f → laterThan f s.chain.counter = false) →
        let deliver := s.chain.alternation ≠ some .answer ∨ ¬s.NoticeWaits
        (∀ p rest a, s.chain.delivery = .answer p :: rest → deliver → (s.member p).answer = some a →
          let t := s.setMember p { s.member p with answer := none }
          exec .controlMessageChoice s = .next
            (({ t with chain := { t.chain with delivery := rest, alternation := some .answer } } : State).send
              (.addressed .answer p) (answerWord s.publisher.epoch p a)))
        ∧ (∀ p rest, s.chain.delivery = .assign p :: rest → deliver →
          exec .controlMessageChoice s = .next
            (({ s with chain := { s.chain with delivery := rest ++ [.assign p], alternation := some .answer } } : State).send
              (.addressed .assign p) (assignWord s.publisher.epoch p s.chain.counter)))
        ∧ ∀ set r n, s.publisher.stage = .notifying set → set.rotation = some r → r ≠ 0 → set.Gives r n →
            (s.chain.delivery = [] ∨ s.chain.alternation = some .answer) →
          let turned : ChangeSet := { set with rotation := some (if n.position = 15 then 1 else n.position + 1) }
          exec .controlMessageChoice s = .next
            (({ s with
                publisher := { s.publisher with stage := .notifying turned }
                chain := { s.chain with alternation := some .notice } } : State).send
              (.addressed (.notice n.delta) n.position) (s.noticeBits set n)))

/-- CONTROL_MESSAGE_CHOICE with no application due, lines 5 to 7: with nothing of higher standing, a due open call to the position above the
highest JOINED one, else a POLL to the next JOINED position above the poll mark, wrapping to the lowest, else IDLE;
once the message is chosen, the event does nothing (R116, R142, R145). -/
def Obligations.ChoiceWithNothingWaiting : Prop :=
  ∀ s : State, s.inFrame = true → s.applicationDue = false →
    (s.chain.frame.control ≠ none → exec .controlMessageChoice s = .next s)
    ∧ (s.chain.frame.control = none → s.chain.delivery = [] → ¬s.NoticeWaits →
      (∀ set f, s.publisher.stage = .switching set f → laterThan f s.chain.counter = false) →
      let ripe := s.members.admission ≠ .closed ∧ (∀ p, (s.member p).state ≠ .admitting ∧ (s.member p).state ≠ .lost)
        ∧ ∀ m, s.members.lastOpenCall = some m → 256 ≤ (s.chain.counter - m).toNat
      (∀ t, ripe → t ≠ 0 → (t = 1 ∨ s.joined (t - 1) = true) → (∀ q, t ≤ q → s.joined q = false) →
        exec .controlMessageChoice s = .next
          (({ s with members := { s.members with lastOpenCall := some s.chain.counter } } : State).send
            (.openCall t) (openCallWord s.publisher.epoch t)))
      ∧ (∀ p, ¬ripe ∨ s.joined 15 = true → s.joined p = true →
        ((∃ k, s.chain.pollMark = some k ∧ k < p ∧ ∀ q, k < q → q < p → s.joined q = false)
          ∨ ((∀ k q, s.chain.pollMark = some k → k < q → s.joined q = false) ∧ ∀ q, q < p → s.joined q = false)) →
        exec .controlMessageChoice s = .next (({ s with chain := { s.chain with pollMark := some p } } : State).send
          (.addressed .poll p) (pollWord s.publisher.epoch p)))
      ∧ (¬ripe → (∀ p, s.joined p = false) →
        exec .controlMessageChoice s = .next (s.send .idle (idleWord s.publisher.epoch))))

/-- The control message, bit by bit: kind, target, epoch and check byte of every kind, the payloads of ASSIGN, SWITCH
and OPEN_CALL, and what a NOTICE tells a source, a listener of the new configuration, a listener of the active one
alone, and those of a retirement (R85, R186, R187; that a listener of the active configuration alone is told 511, by R85's
table and not by R37's list, is the model's inference, log entry 15). -/
def Obligations.ControlMessageLayout : Prop :=
  let carries := fun (w : ChainWord) (kind : BitVec 3) (target : Position) (e : Epoch) (payload : BitVec 41) =>
    fieldAt w 0 3 = kind ∧ (fieldAt w 3 4).toNat = target.val ∧ fieldAt w 7 8 = e ∧ fieldAt w 15 41 = payload
      ∧ fieldAt w 56 8 = crc8 (bodyBytes (fieldAt w 0 56))
  (∀ e, carries (idleWord e) 0 0 e 0) ∧ (∀ e p, carries (pollWord e p) 1 p e 0)
  ∧ (∀ e p a, ∃ y, carries (answerWord e p a) 2 p e y ∧ fieldAt y 0 3 = a.operation ∧ fieldAt y 3 4 = a.status.code
      ∧ bitAt y 7 = a.overrun ∧ (fieldAt y 8 7).toNat = a.handle.index.val ∧ fieldAt y 15 4 = a.handle.generation
      ∧ fieldAt y 19 22 = a.result)
  ∧ (∀ e p n, ∃ y, carries (assignWord e p n) 4 p e y ∧ (fieldAt y 0 4).toNat = p.val ∧ fieldAt y 4 32 = n ∧ fieldAt y 36 5 = 0)
  ∧ (∀ e n f, ∃ y, carries (switchWord e n f) 5 0 e y ∧ fieldAt y 0 8 = n ∧ fieldAt y 8 32 = f ∧ fieldAt y 40 1 = 0)
  ∧ (∀ e t, ∃ y, carries (openCallWord e t) 6 0 e y ∧ (fieldAt y 0 4).toNat = t.val ∧ fieldAt y 4 37 = 0)
  ∧ ∀ (s : State) (set : ChangeSet) (n : Notice) (d : Delta) (l : Lease),
      set.deltas[n.delta]? = some d → s.leases[d.handle.index] = ⟨d.handle.generation, some l⟩ →
    ∃ y, carries (s.noticeBits set n) 3 n.position s.publisher.epoch y
      ∧ (fieldAt y 0 7).toNat = d.handle.index.val ∧ fieldAt y 7 4 = d.handle.generation ∧ fieldAt y 11 8 = l.stream
      ∧ (bitAt y 21 = true ↔ l.direction = .up) ∧ fieldAt y 37 4 = 0
      ∧ (∀ c, d.kind = .config c → fieldAt y 22 3 = c.width.code
        ∧ (1 ≤ c.count → c.count ≤ 8 → (fieldAt y 25 3).toNat = c.count - 1)
        ∧ (l.source = n.position → fieldAt y 19 2 = 1 ∧ fieldAt y 28 9 = offsetBits c.placement)
        ∧ (l.source ≠ n.position → hasListener c.listeners n.position = true →
            fieldAt y 19 2 = 2 ∧ fieldAt y 28 9 = offsetBits c.placement)
        ∧ (l.source ≠ n.position → hasListener c.listeners n.position = false → fieldAt y 19 2 = 0 ∧ fieldAt y 28 9 = 511))
      ∧ ∀ cause, d.kind = .retire cause → fieldAt y 19 2 = 0 ∧ fieldAt y 22 3 = l.active.width.code ∧ fieldAt y 28 9 = 511
        ∧ (1 ≤ l.active.count → l.active.count ≤ 8 → (fieldAt y 25 3).toNat = l.active.count - 1)

/-! ## The response word -/

/-- RESPONSE_WORD to a POLL, an ANSWER, a NOTICE or an ASSIGN: a word is valid when it is present, its check byte is
right, it echoes the position, it carries the active epoch and its JOIN flag is clear; a valid one delivers its
request and resets the miss count, settles a NOTICE or admits the member when it has ACK, and any other is a miss
(R87, R120, R122, R131, R132, R146, R147, R188). -/
def Obligations.ResponsesAreJudged : Prop :=
  (∀ (s : State) (k : Addressed) (p : Position), s.AtResponse → s.unanswered = some (.addressed k p) →
    (∀ ack request payload,
      let taken := if request = true then s.responseTaken.intake p payload else s.responseTaken
      let heard := taken.setMember p { taken.member p with misses := 0 }
      let answered := fun t => exec (.responseWord (responseWordOf ack request false p s.publisher.epoch payload)) s = .next t
      (k = .poll ∨ k = .answer → answered heard)
      ∧ (∀ d, k = .notice d → ack = true → answered (heard.changeNotices (ackNotice d p)))
      ∧ (∀ d, k = .notice d → ack = false → answered (taken.countMiss p))
      ∧ (k = .assign → (s.member p).state = .admitting → ack = false → answered (s.responseTaken.countMiss p))
      ∧ (k = .assign → (s.member p).state = .admitting → ack = true →
        let t := s.responseTaken.setMember p { s.member p with state := .joined, misses := 0 }
        let left := s.chain.delivery.filter fun d => d != .answer p && d != .assign p
        answered (({ t with chain := { t.chain with delivery := left } } : State).raiseMember p Reason.joined)))
    ∧ ∀ w, (∀ ack request payload, w ≠ responseWordOf ack request false p s.publisher.epoch payload) →
      exec (.responseWord w) s = .next (s.responseTaken.countMiss p))
  ∧ (∀ (s : State) (p : Position) (payload : BitVec 40),
    (s.joined p = false → s.intake p payload = s)
    ∧ (s.joined p = true → (∀ e ∈ s.engine.queue, e.position ≠ p) → (s.member p).answer = none →
      s.intake p payload = { s with engine := { s.engine with queue := s.engine.queue ++ [⟨p, payload, false⟩] } })
    ∧ (∀ a, s.joined p = true → (∀ e ∈ s.engine.queue, e.position ≠ p) → (s.member p).answer = some a →
      s.intake p payload = s.setMember p { s.member p with answer := some { a with overrun := true } })
    ∧ (s.joined p = true → (∃ e ∈ s.engine.queue, e.position = p) →
      let marked := s.engine.queue.map fun e => if e.position = p then { e with overrun := true } else e
      s.intake p payload = { s with engine := { s.engine with queue := marked } }))
  ∧ ∀ (s : State) (set : ChangeSet) (d : Nat) (p : Position), s.publisher.stage = .notifying set →
    let acked := set.notices.map fun n => if n.delta = d ∧ n.position = p then { n with acked := true } else n
    let told : ChangeSet := { set with notices := acked }
    ((∃ n ∈ told.notices, n.acked = false) → s.changeNotices (ackNotice d p)
      = { s with publisher := { s.publisher with stage := .notifying told } })
    ∧ ((∀ n ∈ told.notices, n.acked = true) → ∀ lead, s.chain.lead = some lead → s.changeNotices (ackNotice d p)
      = { s with publisher := { s.publisher with stage := .switching told (s.chain.counter + BitVec.ofNat 32 lead) } })

/-- RESPONSE_WORD to an OPEN_CALL: a JOIN that echoes the target, whatever epoch it carries, is admitted in mode OPEN
and, in mode LISTED, when vendor and product are the expected ones, and is refused otherwise; any other word
changes nothing and counts no miss. A frame that asked for no response reads none (R118, R119, R143, R146, R148). -/
def Obligations.JoinsAreDecided : Prop :=
  ∀ s : State, s.AtResponse →
    (∀ t, s.unanswered = some (.openCall t) → t ≠ 0 →
      (∀ ack request epoch d,
        let joins := s.members.admission = .openMode ∨ (s.members.admission = .listed
          ∧ ∃ x, (s.member t).expected = some x ∧ x.vendor = d.vendor ∧ x.product = d.product)
        let word := responseWordOf ack request true t epoch (identityPayload d)
        (joins →
          let u := s.responseTaken.setMember t { s.member t with state := .admitting, identity := some d, misses := 0 }
          exec (.responseWord word) s = .next { u with chain := { u.chain with delivery := s.chain.delivery ++ [.assign t] } })
        ∧ (¬joins → exec (.responseWord word) s = .next
          ((s.responseTaken.setMember t { s.member t with identity := some d }).raiseMember t Reason.refused)))
      ∧ ∀ w, (∀ ack request epoch d, w ≠ responseWordOf ack request true t epoch (identityPayload d)) →
        exec (.responseWord w) s = .next s.responseTaken)
    ∧ ((s.unanswered = none ∨ s.unanswered = some .idle ∨ s.unanswered = some .switch) →
      ∀ w, exec (.responseWord w) s = .next s)

/-! ## Misses, loss and release -/

/-- A miss raises the count; at the miss limit a JOINED member is lost and an ADMITTING one's admission fails, in that
event, whether it comes as the response word or as MEMBER_LOSS or ADMISSION_FAILURE, which otherwise do nothing
(R121, R122, R123; for the two commands, log entry 7). -/
def Obligations.MissesReachTheLimit : Prop :=
  ∀ (s : State) (p : Position), p ≠ 0 → s.AtResponse →
    let missed := s.responseTaken.setMember p { s.member p with misses := (s.member p).misses + 1 }
    (∀ k m, s.unanswered = some (.addressed k p) → s.members.missLimit = some m →
      ((s.member p).misses + 1 < m → exec (.responseWord 0) s = .next missed
        ∧ exec (.memberLoss p) s = .next s ∧ exec (.admissionFailure p) s = .next s)
      ∧ (m ≤ (s.member p).misses + 1 → (s.member p).state = .joined →
        exec (.responseWord 0) s = .next (missed.loseMember p) ∧ exec (.memberLoss p) s = .next (missed.loseMember p)
        ∧ exec (.admissionFailure p) s = .next s)
      ∧ (m ≤ (s.member p).misses + 1 → (s.member p).state = .admitting →
        let t := s.responseTaken.setMember p { s.member p with state := .vacant, identity := none, misses := 0 }
        let left := s.chain.delivery.filter fun d => d != .answer p && d != .assign p
        let failed := ({ t with chain := { t.chain with delivery := left } } : State).raiseMember p Reason.admitFailed
        exec (.responseWord 0) s = .next failed ∧ exec (.admissionFailure p) s = .next failed
        ∧ exec (.memberLoss p) s = .next s))
    ∧ ((∀ k, s.unanswered ≠ some (.addressed k p)) →
      exec (.memberLoss p) s = .next s ∧ exec (.admissionFailure p) s = .next s)

/-- The loss of the member at k: k and every JOINED position above become LOST, an ADMITTING one VACANT, and their queue
entries, pending answers, deliveries and OPEN notices go; leases with a LOST source are orphaned and LOST listeners
are removed from the latest configurations; then LOST positions are checked for release (R88, R123 to R127). -/
def Obligations.LossSweepsAndCleans : Prop :=
  ∀ (s : State) (k : Position), k ≠ 0 →
    let u := s.cascade k
    let lost := fun p => (u.member p).state = .lost
    u = { s with
        engine := { s.engine with queue := u.engine.queue }
        members := { s.members with records := u.members.records }
        chain := { s.chain with delivery := u.chain.delivery }
        publisher := { s.publisher with stage := u.publisher.stage }
        attention := { s.attention with device := u.attention.device, members := u.attention.members } }
    ∧ (∀ p, p ≠ 0 →
      (s.Swept k p → (s.member p).state = .joined →
        u.member p = { s.member p with state := .lost, answer := none }
        ∧ u.attention.members[memberIndex p] = s.attention.members[memberIndex p] ||| Reason.lost)
      ∧ (s.Swept k p → (s.member p).state = .admitting →
        u.member p = { s.member p with state := .vacant, identity := none, misses := 0, answer := none }
        ∧ u.attention.members[memberIndex p] = s.attention.members[memberIndex p] ||| Reason.admitFailed)
      ∧ (¬s.Swept k p → u.member p = s.member p
        ∧ u.attention.members[memberIndex p] = s.attention.members[memberIndex p]))
    ∧ u.attention.device = (if k = 1 then s.attention.device ||| Reason.linkLost else s.attention.device)
    ∧ (∀ e, e ∈ u.engine.queue ↔ e ∈ s.engine.queue ∧ ¬s.Swept k e.position) ∧ u.engine.queue.Sublist s.engine.queue
    ∧ (∀ p, (.answer p ∈ u.chain.delivery ↔ .answer p ∈ s.chain.delivery ∧ ¬s.Swept k p)
        ∧ (.assign p ∈ u.chain.delivery ↔ .assign p ∈ s.chain.delivery ∧ ¬s.Swept k p))
    ∧ u.chain.delivery.Sublist s.chain.delivery
    ∧ (∀ set, s.publisher.stage.set? = some set → ∃ set', u.publisher.stage.set? = some set'
        ∧ set' = { set with notices := set'.notices } ∧ set'.notices.Sublist set.notices
        ∧ (∀ n, n ∈ set'.notices ↔ n ∈ set.notices ∧ (n.acked = true ∨ ¬s.Swept k n.position))
        ∧ (∀ f, s.publisher.stage = .switching set f → u.publisher.stage = .switching set' f)
        ∧ (s.publisher.stage = .notifying set → (∃ n ∈ set'.notices, n.acked = false) → u.publisher.stage = .notifying set')
        ∧ (s.publisher.stage = .notifying set → (∀ n ∈ set'.notices, n.acked = true) → ∀ lead, s.chain.lead = some lead →
            u.publisher.stage = .switching set' (s.chain.counter + BitVec.ofNat 32 lead)))
    ∧ (s.publisher.stage.set? = none → u.publisher.stage = s.publisher.stage)
    ∧ ∃ t : State, s.loseMember k = t.releaseLost
      ∧ t = { u with leases := t.leases, attention := { u.attention with leases := t.attention.leases }
                     publisher := t.publisher }
      ∧ (∀ i, s.lease? i = none → t.leases[i] = s.leases[i] ∧ t.attention.leases[i] = s.attention.leases[i])
      ∧ (∀ i l, s.lease? i = some l →
        let g := s.leases[i].generation
        let item := s.attention.leases[i]
        let orphaned := lost l.source ∧ (l.mark = none ∨ l.mark = some ⟨.expired, .staged⟩)
        let cleaned := l.state ≠ .going ∧ ∃ p, lost p ∧ hasListener l.latest.listeners p = true
        (lost l.source → l.mark = none → l.NothingInFlight →
          t.leases[i] = ⟨g + 1, none⟩
          ∧ t.attention.leases[i] = raiseItem (raiseItem item g Reason.orphaned) g Reason.retired)
        ∧ (¬(lost l.source ∧ l.mark = none ∧ l.NothingInFlight) → ∃ l', t.leases[i] = ⟨g, some l'⟩
          ∧ l' = { l with mark := l'.mark, staged := l'.staged }
          ∧ (orphaned → l'.mark = some ⟨.orphaned, .staged⟩ ∧ t.attention.leases[i] = raiseItem item g Reason.orphaned)
          ∧ (¬orphaned → l'.mark = l.mark ∧ t.attention.leases[i] = item)
          ∧ (¬cleaned → l'.staged = l.staged)
          ∧ (cleaned → ∃ c, l'.staged = some c ∧ c.width = l.latest.width ∧ c.count = l.latest.count
            ∧ (∀ p, hasListener c.listeners p = true ↔ hasListener l.latest.listeners p = true ∧ ¬lost p)
            ∧ (c.listeners ≠ 0 → c.placement = l.latest.placement) ∧ (c.listeners = 0 → c.placement = none))))
      ∧ ((∃ i l l', s.lease? i = some l ∧ t.lease? i = some l' ∧ ((l.mark = none ∧ l'.mark ≠ none) ∨ l'.staged ≠ l.staged)) →
          t.publisher = u.noteStaged.publisher)
      ∧ ((∀ i l l', s.lease? i = some l → t.lease? i = some l' → (l.mark = none → l'.mark = none) ∧ l'.staged = l.staged) →
          t.publisher = u.publisher)

/-- The release check: a LOST position that no lease names as source or listener, and above which the position is VACANT
after the check, or 15, becomes VACANT without identity and misses, and VACATED is raised; everything else stays
(R129, R130). -/
def Obligations.LostPositionsAreReleased : Prop :=
  ∀ s : State,
    let t := s.releaseLost
    t = { s with
      members := { s.members with records := t.members.records }
      attention := { s.attention with members := t.attention.members } }
    ∧ ∀ p, p ≠ 0 →
      let goes := (s.member p).state = .lost
        ∧ (∀ i l, s.lease? i = some l → l.source ≠ p ∧ ∀ c ∈ l.configurations, hasListener c.listeners p = false)
        ∧ (p = 15 ∨ (t.member (p + 1)).state = .vacant)
      (goes → t.member p = { s.member p with state := .vacant, identity := none, misses := 0 }
        ∧ t.attention.members[memberIndex p] = s.attention.members[memberIndex p] ||| Reason.vacated)
      ∧ (¬goes → t.member p = s.member p ∧ t.attention.members[memberIndex p] = s.attention.members[memberIndex p])

/-! ## Slots and the local port -/

/-- DOWN_REGION_DRIVE, once in a frame: the slots of every placed source-0 lease carry the samples of its channels, their
fill bits and even parity at their offsets, and every other bit of the region is 0; nothing else changes (R24, R149,
R159; for once in a frame, log entry 10). -/
def Obligations.DownRegionCarriesTheChannels : Prop :=
  ∀ s : State, s.Settled →
    (s.chain.frame.downRegion ≠ none → exec .downRegionDrive s = .next s)
    ∧ (s.chain.frame.downRegion = none → s.TableLawful → s.LayoutLawful → ∃ region : BitVec 440,
      exec .downRegionDrive s = .next { s with chain := { s.chain with frame := { s.chain.frame with downRegion := some region } } }
      ∧ (∀ i l o, s.lease? i = some l → l.direction = .down → l.source = 0 → l.active.placement = some o →
        ∀ k, k < l.active.count →
          let w := l.active.width.bits
          let first := o + k * (w + 2)
          let slot := fun (word : BitVec 32) (fill : Bool) =>
            (∀ j, j < w → region.getMsbD (first + j) = word.getMsbD j) ∧ region.getMsbD (first + w) = fill
              ∧ EvenOnes region first (w + 2)
          (∀ (b : Channel) (h : b.val + k < 32), l.base = some b →
            (s.localPort.input[b.val + k].complete = true → slot s.localPort.input[b.val + k].word true)
            ∧ (s.localPort.input[b.val + k].complete = false → slot 0 false))
          ∧ (l.base = none → slot 0 false))
      ∧ ∀ x, x < 440 → (∀ i l o, s.lease? i = some l → l.direction = .down → l.source = 0 → l.active.placement = some o →
          ¬(o ≤ x ∧ x < o + l.active.cost)) → region.getMsbD x = false)

/-- UP_SLOT_READ of slot k of a lease that the head reads, once in a frame: the slot is the w + 2 bits of the UP region
at o + k (w + 2), with o, w those of the active configuration, so a lease is read at its new offset from the switch frame
on. A filled slot with good parity sets HEARD, renews, and writes its sample to the lease's channel; a filled slot with bad
parity is counted up to 255 and an unfilled one changes nothing of the lease, and both write zero. Any other read does
nothing (R12, R24, R106, R107, R150, R151, R160; for once in a frame, log entry 10). -/
def Obligations.UpSlotsAreRead : Prop :=
  ∀ (s : State) (i : LeaseIndex) (k : Fin 8) (region : BitVec 440), s.AtUpRegion →
    (∀ l, s.lease? i = some l →
      let reads := l.direction = .up ∧ hasListener l.active.listeners 0 = true ∧ k.val < l.active.count
        ∧ (i, k) ∉ s.chain.frame.slotsRead
      let w := l.active.width.bits
      (¬reads ∨ l.active.placement = none → exec (.upSlotRead i k region) s = .next s)
      ∧ ∀ o, reads → l.active.placement = some o →
        let first := o + k.val * (w + 2)
        ∀ (l' : Lease) (word : BitVec 32),
        (region.getMsbD (first + w) = true → EvenOnes region first (w + 2) →
          (∀ j, j < 32 → word.getMsbD j = (decide (j < w) && region.getMsbD (first + j)))
          ∧ (l.mark = none ∨ l.mark = some ⟨.expired, .staged⟩ → l' = { l with
              heard := true, mark := none
              expiry := if l.term = 0 then none else some (s.chain.counter + l.term.zeroExtend 32 * 64) })
          ∧ (¬(l.mark = none ∨ l.mark = some ⟨.expired, .staged⟩) → l' = { l with heard := true })) →
        (region.getMsbD (first + w) = true → ¬EvenOnes region first (w + 2) →
          word = 0 ∧ l' = { l with parityFaults := if l.parityFaults = 255 then 255 else l.parityFaults + 1 }) →
        (region.getMsbD (first + w) = false → word = 0 ∧ l' = l) →
        let t := ({ s with chain := { s.chain with frame := { s.chain.frame with
          slotsRead := (i, k) :: s.chain.frame.slotsRead } } } : State).withLease i l'
        (l.base = none → exec (.upSlotRead i k region) s = .next t)
        ∧ ∀ (b : Channel) (h : b.val + k.val < 32), l.base = some b → exec (.upSlotRead i k region) s = .next
            { t with localPort := { s.localPort with gathering := s.localPort.gathering.set (b.val + k.val) word h } })
    ∧ (s.lease? i = none → exec (.upSlotRead i k region) s = .next s)

/-- LBCK_PERIOD n of a local frame, 0 to 1023, shifts LSDI into the capture register of channel n / 32, drives bit n mod
32 of that channel's word on LSDO, most significant first, and holds LFS in period 0; later periods are not
counted and drive 0 (R154, R155; for the level of LFS, log entry 8). -/
def Obligations.LbckPeriodsMoveTheBits : Prop :=
  ∀ (s : State) (d : Bool), s.inFrame = true →
    (∀ (c : Channel) (j : Nat), j < 32 → s.localPort.periods = 32 * c.val + j →
      exec (.lbckPeriod d) s = .next { s with localPort := { s.localPort with
        periods := s.localPort.periods + 1
        capture := s.localPort.capture.set c.val (s.localPort.capture[c].extractLsb' 0 31 ++ BitVec.ofBool d)
        lfs := decide (s.localPort.periods = 0)
        lsdo := s.localPort.sending[c].getMsbD j } })
    ∧ (1024 ≤ s.localPort.periods →
      exec (.lbckPeriod d) s = .next { s with localPort := { s.localPort with lfs := false, lsdo := false } })

/-! ## Placement -/

/-- The shrink rule: a new configuration of a LIVE or RETIRING lease whose span lies within that of the latest placed
configuration, and whose cost is no greater, fits at the latest one's offset and is given it, so that it never
meets NO_ROOM (R28, R33, R34). -/
def Obligations.ShrinkingKeepsTheOffset : Prop :=
  ∀ (s : State) (i : LeaseIndex) (l : Lease) (c : Configuration) (o : Nat), s.TableLawful → s.LayoutLawful →
    s.lease? i = some l → l.state ≠ .going → l.latest.placement = some o → c.listeners ≠ 0 →
    c.cost ≤ l.latest.cost →
    (spanOf l.direction l.source l.latest.listeners).1 ≤ (spanOf l.direction l.source c.listeners).1 →
    (spanOf l.direction l.source c.listeners).2 ≤ (spanOf l.direction l.source l.latest.listeners).2 →
    s.FitsAt i l.direction l.source c o
      ∧ s.placeFor i l.direction l.source c (some o) = some { c with placement := some o }

/-! ## Encodings -/

/-- The form step of every host request: the bytes that are read as parameters are exactly those that R190 lays out
for lawful values, and reading gives the values back; any other run of bytes is refused (R46, R190). -/
def Obligations.HostParametersRoundTrip : Prop :=
  (∀ ps f, readCreate ps = some f ↔ ps = createParams f ∧ f.stream ≠ 0 ∧ 1 ≤ f.count ∧ f.count ≤ 8)
  ∧ (∀ ps h w n, readShape ps = some (h, w, n) ↔ ps = shapeParams h w n ∧ 1 ≤ n ∧ n ≤ 8)
  ∧ (∀ ps h p, readHandlePosition ps = some (h, p) ↔ ps = h.bytes ++ [posByte p])
  ∧ (∀ ps h, readHandleOnly ps = some h ↔ ps = h.bytes)
  ∧ (∀ ps h t, readRenew ps = some (h, t) ↔ ps = h.bytes ++ newTermBytes t)
  ∧ (∀ ps h a b, readSetRights ps = some (h, a, b) ↔ ps = h.bytes ++ [rightsByte a b])
  ∧ (∀ ps h b, readBindLocal ps = some (h, b) ↔ ps = h.bytes ++ [baseByte b])
  ∧ (∀ ps h f, readQuery ps = some (h, f) ↔ ps = h.bytes ++ [flagByte f])
  ∧ (∀ ps n, readResolve ps = some n ↔ ps = [n] ∧ n ≠ 0)
  ∧ (∀ ps, readNothing ps = some () ↔ ps = [])
  ∧ (∀ ps m w, readSetPublishing ps = some (m, w) ↔ ps = [m.code, w])
  ∧ (∀ ps p, readReadMember ps = some p ↔ ps = [posByte p] ∧ p ≠ 0)
  ∧ (∀ ps p x, readSetExpected ps = some (p, x) ↔
      p ≠ 0 ∧ ∃ unread : List Byte, unread.length = 3 ∧ ps = expectedParams p x unread)
  ∧ (∀ ps m, readSetAdmission ps = some m ↔ ps = [m.code])
  ∧ ∀ ps r m n, readChainStart ps = some (r, m, n) ↔
      ps = [r.code, BitVec.ofNat 8 m, BitVec.ofNat 8 n] ∧ 2 ≤ m ∧ m ≤ 15 ∧ 2 ≤ n ∧ n ≤ 64

/-- The payload of every member request and of a JOIN, and the response word around them: what is read is exactly what
R188 lays out, whatever the bits that are not read hold, a width code of 6 or 7 and a stream of 0 are refused, and a
word is taken as whole only with its presence bit set and its check byte right (R46, R54, R146, R148, R188). -/
def Obligations.ResponseWordsRoundTrip : Prop :=
  (∀ (e : QueueEntry) (f : CreateFields), e.operation = 1 → (e.create = some f ↔
    (∃ unread, e.payload = createPayload f unread) ∧ f.stream ≠ 0 ∧ 1 ≤ f.count ∧ f.count ≤ 8
      ∧ f.source = e.position ∧ f.listeners = 0 ∧ f.base = none))
  ∧ (∀ (e : QueueEntry) (h : Handle) (w : Width) (n : Nat), e.operation = 2 →
    (e.handle = h ∧ e.shape = some (w, n) ↔ (∃ unread, e.payload = shapePayload h w n unread) ∧ 1 ≤ n ∧ n ≤ 8))
  ∧ (∀ (e : QueueEntry) (operation : BitVec 3) (h : Handle),
    e.operation = operation ∧ e.handle = h ↔ ∃ unread, e.payload = handlePayload operation h unread)
  ∧ (∀ (e : QueueEntry) (n : Stream), e.operation = 7 →
    (e.stream = some n ↔ n ≠ 0 ∧ ∃ unread, e.payload = streamPayload n unread))
  ∧ (∀ (ack request join : Bool) (echo : Position) (epoch : Epoch) (payload : BitVec 40),
    let w := responseWordOf ack request join echo epoch payload
    wordSound w = true ∧ wordAck w = ack ∧ wordRequest w = request ∧ wordJoin w = join ∧ wordEcho w = echo
      ∧ wordEpoch w = epoch ∧ wordPayload w = payload)
  ∧ (∀ w : ChainWord, wordSound w = true →
    w = responseWordOf (wordAck w) (wordRequest w) (wordJoin w) (wordEcho w) (wordEpoch w) (wordPayload w))
  ∧ ∀ (ack request : Bool) (t : Position) (epoch : Epoch) (d : Identity),
    joinIdentity (responseWordOf ack request true t epoch (identityPayload d)) = d

/-! ## Laws that every step keeps -/

/-- Every law holds right after reset. -/
def Obligations.LawsHoldAtReset : Prop := State.reset.Lawful

/-- Every step keeps the Lease Table lawful: counts, placements exactly with listeners, listeners on their side of the
source, runs within the region, marks against sealed changes, terms against expiry frames, no stream twice (R6, R7,
R8, R10, R13). -/
def Obligations.StepsKeepTheTable : Prop := ∀ s t : State, s.TableLawful → step s = .next t → t.TableLawful

/-- Every step keeps the reserved channels within 0 to 31 and every channel reserved by one lease at most (R11, R61). -/
def Obligations.StepsKeepTheChannels : Prop := ∀ s t : State, s.ChannelsLawful → step s = .next t → t.ChannelsLawful

/-- Every step keeps the claims of distinct leases apart, so that no bit of a hop is promised twice, their active
placements apart, and sealed changes on leases of the set in flight only (R19, R28, R30, R34). -/
def Obligations.StepsKeepTheLayout : Prop := ∀ s t : State, s.Lawful → step s = .next t → t.LayoutLawful

/-- Every step keeps the member positions in their three runs, and the queue, the pending answers and the delivery list
consistent: a JOINED member holds at most one request or answer, and each answer and each ASSIGN waits exactly once
(R43, R114, R125, R131, R143). -/
def Obligations.StepsKeepTheMembers : Prop :=
  ∀ s t : State, s.Lawful → step s = .next t → t.MembersLawful ∧ t.QueueLawful

/-- Every step keeps leases naming only the head and JOINED or LOST members, within the limits of each (R50, R51, R129). -/
def Obligations.StepsKeepTheNames : Prop := ∀ s t : State, s.Lawful → step s = .next t → t.NamesLawful

/-- Every step keeps the set in flight in agreement with the leases, its number one above the epoch, a batch window to
AUTO mode, and a stopped chain quiet (R22, R74, R75, R82, R83, R88, R89, R98, R113, R133, R135, R154). -/
def Obligations.StepsKeepThePublisher : Prop :=
  ∀ s t : State, s.Lawful → step s = .next t → t.PublisherLawful ∧ t.StoppedLawful

/-- A lease keeps its stream, owner, source and direction for as long as it is not FREE; an entry's generation
advances by one exactly when its lease goes FREE and never otherwise, but for device reset; so a handle that has
gone stale names no later lease until the generation comes round again (R2, R3, R4, R21). -/
def Obligations.HandlesNameOneLease : Prop :=
  ∀ (c : Instr) (s t : State), c ≠ .deviceReset → exec c s = .next t → ∀ i : LeaseIndex,
    (∀ l, s.lease? i = some l →
      (∃ l', t.leases[i] = ⟨s.leases[i].generation, some l'⟩ ∧ l'.stream = l.stream ∧ l'.owner = l.owner
        ∧ l'.source = l.source ∧ l'.direction = l.direction)
      ∨ t.leases[i] = ⟨s.leases[i].generation + 1, none⟩)
    ∧ (s.lease? i = none → t.leases[i].generation = s.leases[i].generation
      ∧ (t.lease? i ≠ none → c = .create ∨ c = .memberCreate))

/-- A reason in the attention set stays until the item that holds it is fetched, the device is reset, or, on a lease
item, a later lease of the entry supersedes it; an item present holds a reason (R163, R166, R167, R168, R170). -/
def Obligations.AttentionIsKept : Prop :=
  ∀ (c : Instr) (s t : State), s.AttentionLawful → exec c s = .next t →
    t.AttentionLawful
    ∧ (c ≠ .deviceReset → c ≠ .fetchAttention →
      s.attention.device &&& ~~~t.attention.device = 0
      ∧ (∀ k : Fin 15, s.attention.members[k] &&& ~~~t.attention.members[k] = 0)
      ∧ ∀ (i : LeaseIndex) old, s.attention.leases[i] = some old → ∃ new, t.attention.leases[i] = some new
        ∧ ((new.generation = old.generation ∧ old.reasons &&& ~~~new.reasons = 0)
          ∨ (new.generation ≠ old.generation ∧ new.reasons &&& Reason.superseded ≠ 0)))
end

