-- ==== Sys2Proof/Laws/State.lean ====
section
/-! SUPPORT. One lemma per field per named update of the state, so that no later proof unfolds a record
update. -/

namespace Sys2Proof.Machine

variable (s : State)

/-! ### setStage -/

@[simp] theorem State.setStage_leases (st : PublisherStage) : (s.setStage st).leases = s.leases := rfl
@[simp] theorem State.setStage_engine (st : PublisherStage) : (s.setStage st).engine = s.engine := rfl
@[simp] theorem State.setStage_publisher (st : PublisherStage) :
    (s.setStage st).publisher = { s.publisher with stage := st } := rfl
@[simp] theorem State.setStage_members (st : PublisherStage) : (s.setStage st).members = s.members := rfl
@[simp] theorem State.setStage_chain (st : PublisherStage) : (s.setStage st).chain = s.chain := rfl
@[simp] theorem State.setStage_localPort (st : PublisherStage) : (s.setStage st).localPort = s.localPort := rfl
@[simp] theorem State.setStage_attention (st : PublisherStage) : (s.setStage st).attention = s.attention := rfl
@[simp] theorem State.setStage_hostPort (st : PublisherStage) : (s.setStage st).hostPort = s.hostPort := rfl
@[simp] theorem State.setStage_inReset (st : PublisherStage) : (s.setStage st).inReset = s.inReset := rfl
@[simp] theorem State.setStage_pending (st : PublisherStage) : (s.setStage st).pending = s.pending := rfl
@[simp] theorem State.setStage_member (st : PublisherStage) (q : Position) :
    (s.setStage st).member q = s.member q := by unfold State.member; simp
@[simp] theorem State.setStage_lease (st : PublisherStage) (j : LeaseIndex) :
    (s.setStage st).lease? j = s.lease? j := by unfold State.lease?; simp

/-! ### setFrame -/

@[simp] theorem State.setFrame_leases (f : FrameProgress) : (s.setFrame f).leases = s.leases := rfl
@[simp] theorem State.setFrame_engine (f : FrameProgress) : (s.setFrame f).engine = s.engine := rfl
@[simp] theorem State.setFrame_publisher (f : FrameProgress) : (s.setFrame f).publisher = s.publisher := rfl
@[simp] theorem State.setFrame_members (f : FrameProgress) : (s.setFrame f).members = s.members := rfl
@[simp] theorem State.setFrame_chain (f : FrameProgress) : (s.setFrame f).chain = { s.chain with frame := f } := rfl
@[simp] theorem State.setFrame_localPort (f : FrameProgress) : (s.setFrame f).localPort = s.localPort := rfl
@[simp] theorem State.setFrame_attention (f : FrameProgress) : (s.setFrame f).attention = s.attention := rfl
@[simp] theorem State.setFrame_hostPort (f : FrameProgress) : (s.setFrame f).hostPort = s.hostPort := rfl
@[simp] theorem State.setFrame_inReset (f : FrameProgress) : (s.setFrame f).inReset = s.inReset := rfl
@[simp] theorem State.setFrame_pending (f : FrameProgress) : (s.setFrame f).pending = s.pending := rfl
@[simp] theorem State.setFrame_member (f : FrameProgress) (q : Position) :
    (s.setFrame f).member q = s.member q := by unfold State.member; simp
@[simp] theorem State.setFrame_lease (f : FrameProgress) (j : LeaseIndex) :
    (s.setFrame f).lease? j = s.lease? j := by unfold State.lease?; simp

/-! ### send -/

@[simp] theorem State.send_leases (m : Message) (w : ChainWord) : (s.send m w).leases = s.leases := rfl
@[simp] theorem State.send_engine (m : Message) (w : ChainWord) : (s.send m w).engine = s.engine := rfl
@[simp] theorem State.send_publisher (m : Message) (w : ChainWord) : (s.send m w).publisher = s.publisher := rfl
@[simp] theorem State.send_members (m : Message) (w : ChainWord) : (s.send m w).members = s.members := rfl
@[simp] theorem State.send_chain (m : Message) (w : ChainWord) :
    (s.send m w).chain = { s.chain with frame := { s.chain.frame with control := some ⟨m, w⟩ } } := rfl
@[simp] theorem State.send_localPort (m : Message) (w : ChainWord) : (s.send m w).localPort = s.localPort := rfl
@[simp] theorem State.send_attention (m : Message) (w : ChainWord) : (s.send m w).attention = s.attention := rfl
@[simp] theorem State.send_hostPort (m : Message) (w : ChainWord) : (s.send m w).hostPort = s.hostPort := rfl
@[simp] theorem State.send_inReset (m : Message) (w : ChainWord) : (s.send m w).inReset = s.inReset := rfl
@[simp] theorem State.send_pending (m : Message) (w : ChainWord) : (s.send m w).pending = s.pending := rfl
@[simp] theorem State.send_member (m : Message) (w : ChainWord) (q : Position) :
    (s.send m w).member q = s.member q := by unfold State.member; simp
@[simp] theorem State.send_lease (m : Message) (w : ChainWord) (j : LeaseIndex) :
    (s.send m w).lease? j = s.lease? j := by unfold State.lease?; simp

/-! ### setPort -/

@[simp] theorem State.setPort_leases (p : HostPort) : (s.setPort p).leases = s.leases := rfl
@[simp] theorem State.setPort_engine (p : HostPort) : (s.setPort p).engine = s.engine := rfl
@[simp] theorem State.setPort_publisher (p : HostPort) : (s.setPort p).publisher = s.publisher := rfl
@[simp] theorem State.setPort_members (p : HostPort) : (s.setPort p).members = s.members := rfl
@[simp] theorem State.setPort_chain (p : HostPort) : (s.setPort p).chain = s.chain := rfl
@[simp] theorem State.setPort_localPort (p : HostPort) : (s.setPort p).localPort = s.localPort := rfl
@[simp] theorem State.setPort_attention (p : HostPort) : (s.setPort p).attention = s.attention := rfl
@[simp] theorem State.setPort_hostPort (p : HostPort) : (s.setPort p).hostPort = p := rfl
@[simp] theorem State.setPort_inReset (p : HostPort) : (s.setPort p).inReset = s.inReset := rfl
@[simp] theorem State.setPort_pending (p : HostPort) : (s.setPort p).pending = s.pending := rfl
@[simp] theorem State.setPort_member (p : HostPort) (q : Position) :
    (s.setPort p).member q = s.member q := by unfold State.member; simp
@[simp] theorem State.setPort_lease (p : HostPort) (j : LeaseIndex) :
    (s.setPort p).lease? j = s.lease? j := by unfold State.lease?; simp

/-! ### riseSelect -/

@[simp] theorem State.riseSelect_leases : (s.riseSelect).leases = s.leases := rfl
@[simp] theorem State.riseSelect_engine : (s.riseSelect).engine = s.engine := rfl
@[simp] theorem State.riseSelect_publisher : (s.riseSelect).publisher = s.publisher := rfl
@[simp] theorem State.riseSelect_members : (s.riseSelect).members = s.members := rfl
@[simp] theorem State.riseSelect_chain : (s.riseSelect).chain = s.chain := rfl
@[simp] theorem State.riseSelect_localPort : (s.riseSelect).localPort = s.localPort := rfl
@[simp] theorem State.riseSelect_attention : (s.riseSelect).attention = s.attention := rfl
@[simp] theorem State.riseSelect_hostPort : (s.riseSelect).hostPort = { s.hostPort with select := .high } := rfl
@[simp] theorem State.riseSelect_inReset : (s.riseSelect).inReset = s.inReset := rfl
@[simp] theorem State.riseSelect_pending : (s.riseSelect).pending = s.pending := rfl
@[simp] theorem State.riseSelect_member (q : Position) :
    (s.riseSelect).member q = s.member q := by unfold State.member; simp
@[simp] theorem State.riseSelect_lease (j : LeaseIndex) :
    (s.riseSelect).lease? j = s.lease? j := by unfold State.lease?; simp

/-! ### ignoreSelect -/

@[simp] theorem State.ignoreSelect_leases : (s.ignoreSelect).leases = s.leases := rfl
@[simp] theorem State.ignoreSelect_engine : (s.ignoreSelect).engine = s.engine := rfl
@[simp] theorem State.ignoreSelect_publisher : (s.ignoreSelect).publisher = s.publisher := rfl
@[simp] theorem State.ignoreSelect_members : (s.ignoreSelect).members = s.members := rfl
@[simp] theorem State.ignoreSelect_chain : (s.ignoreSelect).chain = s.chain := rfl
@[simp] theorem State.ignoreSelect_localPort : (s.ignoreSelect).localPort = s.localPort := rfl
@[simp] theorem State.ignoreSelect_attention : (s.ignoreSelect).attention = s.attention := rfl
@[simp] theorem State.ignoreSelect_hostPort : (s.ignoreSelect).hostPort = { s.hostPort with select := .ignored } := rfl
@[simp] theorem State.ignoreSelect_inReset : (s.ignoreSelect).inReset = s.inReset := rfl
@[simp] theorem State.ignoreSelect_pending : (s.ignoreSelect).pending = s.pending := rfl
@[simp] theorem State.ignoreSelect_member (q : Position) :
    (s.ignoreSelect).member q = s.member q := by unfold State.member; simp
@[simp] theorem State.ignoreSelect_lease (j : LeaseIndex) :
    (s.ignoreSelect).lease? j = s.lease? j := by unfold State.lease?; simp

/-! ### dropDelivery -/

@[simp] theorem State.dropDelivery_leases (p : Position) : (s.dropDelivery p).leases = s.leases := rfl
@[simp] theorem State.dropDelivery_engine (p : Position) : (s.dropDelivery p).engine = s.engine := rfl
@[simp] theorem State.dropDelivery_publisher (p : Position) : (s.dropDelivery p).publisher = s.publisher := rfl
@[simp] theorem State.dropDelivery_members (p : Position) : (s.dropDelivery p).members = s.members := rfl
@[simp] theorem State.dropDelivery_chain (p : Position) :
    (s.dropDelivery p).chain = { s.chain with delivery := withoutDelivery s.chain.delivery fun q => q == p } := rfl
@[simp] theorem State.dropDelivery_localPort (p : Position) : (s.dropDelivery p).localPort = s.localPort := rfl
@[simp] theorem State.dropDelivery_attention (p : Position) : (s.dropDelivery p).attention = s.attention := rfl
@[simp] theorem State.dropDelivery_hostPort (p : Position) : (s.dropDelivery p).hostPort = s.hostPort := rfl
@[simp] theorem State.dropDelivery_inReset (p : Position) : (s.dropDelivery p).inReset = s.inReset := rfl
@[simp] theorem State.dropDelivery_pending (p : Position) : (s.dropDelivery p).pending = s.pending := rfl
@[simp] theorem State.dropDelivery_member (p : Position) (q : Position) :
    (s.dropDelivery p).member q = s.member q := by unfold State.member; simp
@[simp] theorem State.dropDelivery_lease (p : Position) (j : LeaseIndex) :
    (s.dropDelivery p).lease? j = s.lease? j := by unfold State.lease?; simp

/-! ### raiseDevice -/

@[simp] theorem State.raiseDevice_leases (r : Reasons) : (s.raiseDevice r).leases = s.leases := rfl
@[simp] theorem State.raiseDevice_engine (r : Reasons) : (s.raiseDevice r).engine = s.engine := rfl
@[simp] theorem State.raiseDevice_publisher (r : Reasons) : (s.raiseDevice r).publisher = s.publisher := rfl
@[simp] theorem State.raiseDevice_members (r : Reasons) : (s.raiseDevice r).members = s.members := rfl
@[simp] theorem State.raiseDevice_chain (r : Reasons) : (s.raiseDevice r).chain = s.chain := rfl
@[simp] theorem State.raiseDevice_localPort (r : Reasons) : (s.raiseDevice r).localPort = s.localPort := rfl
@[simp] theorem State.raiseDevice_attention (r : Reasons) :
    (s.raiseDevice r).attention = { s.attention with device := s.attention.device ||| r } := rfl
@[simp] theorem State.raiseDevice_hostPort (r : Reasons) : (s.raiseDevice r).hostPort = s.hostPort := rfl
@[simp] theorem State.raiseDevice_inReset (r : Reasons) : (s.raiseDevice r).inReset = s.inReset := rfl
@[simp] theorem State.raiseDevice_pending (r : Reasons) : (s.raiseDevice r).pending = s.pending := rfl
@[simp] theorem State.raiseDevice_member (r : Reasons) (q : Position) :
    (s.raiseDevice r).member q = s.member q := by unfold State.member; simp
@[simp] theorem State.raiseDevice_lease (r : Reasons) (j : LeaseIndex) :
    (s.raiseDevice r).lease? j = s.lease? j := by unfold State.lease?; simp

/-! ### raiseLease -/

@[simp] theorem State.raiseLease_leases (i : LeaseIndex) (r : Reasons) : (s.raiseLease i r).leases = s.leases := rfl
@[simp] theorem State.raiseLease_engine (i : LeaseIndex) (r : Reasons) : (s.raiseLease i r).engine = s.engine := rfl
@[simp] theorem State.raiseLease_publisher (i : LeaseIndex) (r : Reasons) :
    (s.raiseLease i r).publisher = s.publisher := rfl
@[simp] theorem State.raiseLease_members (i : LeaseIndex) (r : Reasons) :
    (s.raiseLease i r).members = s.members := rfl
@[simp] theorem State.raiseLease_chain (i : LeaseIndex) (r : Reasons) : (s.raiseLease i r).chain = s.chain := rfl
@[simp] theorem State.raiseLease_localPort (i : LeaseIndex) (r : Reasons) :
    (s.raiseLease i r).localPort = s.localPort := rfl
@[simp] theorem State.raiseLease_attention (i : LeaseIndex) (r : Reasons) :
    (s.raiseLease i r).attention = { s.attention with leases := s.attention.leases.set i (raiseItem s.attention.leases[i] s.leases[i].generation r) } := rfl
@[simp] theorem State.raiseLease_hostPort (i : LeaseIndex) (r : Reasons) :
    (s.raiseLease i r).hostPort = s.hostPort := rfl
@[simp] theorem State.raiseLease_inReset (i : LeaseIndex) (r : Reasons) :
    (s.raiseLease i r).inReset = s.inReset := rfl
@[simp] theorem State.raiseLease_pending (i : LeaseIndex) (r : Reasons) :
    (s.raiseLease i r).pending = s.pending := rfl
@[simp] theorem State.raiseLease_member (i : LeaseIndex) (r : Reasons) (q : Position) :
    (s.raiseLease i r).member q = s.member q := by unfold State.member; simp
@[simp] theorem State.raiseLease_lease (i : LeaseIndex) (r : Reasons) (j : LeaseIndex) :
    (s.raiseLease i r).lease? j = s.lease? j := by unfold State.lease?; simp

/-! ### withLease -/

@[simp] theorem State.withLease_leases (i : LeaseIndex) (l : Lease) :
    (s.withLease i l).leases = s.leases.set i ⟨s.leases[i].generation, some l⟩ := rfl
@[simp] theorem State.withLease_engine (i : LeaseIndex) (l : Lease) : (s.withLease i l).engine = s.engine := rfl
@[simp] theorem State.withLease_publisher (i : LeaseIndex) (l : Lease) :
    (s.withLease i l).publisher = s.publisher := rfl
@[simp] theorem State.withLease_members (i : LeaseIndex) (l : Lease) : (s.withLease i l).members = s.members := rfl
@[simp] theorem State.withLease_chain (i : LeaseIndex) (l : Lease) : (s.withLease i l).chain = s.chain := rfl
@[simp] theorem State.withLease_localPort (i : LeaseIndex) (l : Lease) :
    (s.withLease i l).localPort = s.localPort := rfl
@[simp] theorem State.withLease_attention (i : LeaseIndex) (l : Lease) :
    (s.withLease i l).attention = s.attention := rfl
@[simp] theorem State.withLease_hostPort (i : LeaseIndex) (l : Lease) : (s.withLease i l).hostPort = s.hostPort := rfl
@[simp] theorem State.withLease_inReset (i : LeaseIndex) (l : Lease) : (s.withLease i l).inReset = s.inReset := rfl
@[simp] theorem State.withLease_pending (i : LeaseIndex) (l : Lease) : (s.withLease i l).pending = s.pending := rfl
@[simp] theorem State.withLease_member (i : LeaseIndex) (l : Lease) (q : Position) :
    (s.withLease i l).member q = s.member q := by unfold State.member; simp

/-! ### withFree -/

@[simp] theorem State.withFree_leases (i : LeaseIndex) :
    (s.withFree i).leases = s.leases.set i ⟨s.leases[i].generation + 1, none⟩ := rfl
@[simp] theorem State.withFree_engine (i : LeaseIndex) : (s.withFree i).engine = s.engine := rfl
@[simp] theorem State.withFree_publisher (i : LeaseIndex) : (s.withFree i).publisher = s.publisher := rfl
@[simp] theorem State.withFree_members (i : LeaseIndex) : (s.withFree i).members = s.members := rfl
@[simp] theorem State.withFree_chain (i : LeaseIndex) : (s.withFree i).chain = s.chain := rfl
@[simp] theorem State.withFree_localPort (i : LeaseIndex) : (s.withFree i).localPort = s.localPort := rfl
@[simp] theorem State.withFree_attention (i : LeaseIndex) : (s.withFree i).attention = s.attention := rfl
@[simp] theorem State.withFree_hostPort (i : LeaseIndex) : (s.withFree i).hostPort = s.hostPort := rfl
@[simp] theorem State.withFree_inReset (i : LeaseIndex) : (s.withFree i).inReset = s.inReset := rfl
@[simp] theorem State.withFree_pending (i : LeaseIndex) : (s.withFree i).pending = s.pending := rfl
@[simp] theorem State.withFree_member (i : LeaseIndex) (q : Position) :
    (s.withFree i).member q = s.member q := by unfold State.member; simp

/-! ### answerHost -/

@[simp] theorem State.answerHost_leases (r : HostRequest) (st : Status) (res : List Byte) :
    (s.answerHost r st res).leases = s.leases := rfl
@[simp] theorem State.answerHost_engine (r : HostRequest) (st : Status) (res : List Byte) :
    (s.answerHost r st res).engine = { s.engine with turn := .member } := rfl
@[simp] theorem State.answerHost_publisher (r : HostRequest) (st : Status) (res : List Byte) :
    (s.answerHost r st res).publisher = s.publisher := rfl
@[simp] theorem State.answerHost_members (r : HostRequest) (st : Status) (res : List Byte) :
    (s.answerHost r st res).members = s.members := rfl
@[simp] theorem State.answerHost_chain (r : HostRequest) (st : Status) (res : List Byte) :
    (s.answerHost r st res).chain = s.chain := rfl
@[simp] theorem State.answerHost_localPort (r : HostRequest) (st : Status) (res : List Byte) :
    (s.answerHost r st res).localPort = s.localPort := rfl
@[simp] theorem State.answerHost_attention (r : HostRequest) (st : Status) (res : List Byte) :
    (s.answerHost r st res).attention = s.attention := rfl
@[simp] theorem State.answerHost_hostPort (r : HostRequest) (st : Status) (res : List Byte) :
    (s.answerHost r st res).hostPort = { s.hostPort with slot := .answered r (answerFrame st r res) } := rfl
@[simp] theorem State.answerHost_inReset (r : HostRequest) (st : Status) (res : List Byte) :
    (s.answerHost r st res).inReset = s.inReset := rfl
@[simp] theorem State.answerHost_pending (r : HostRequest) (st : Status) (res : List Byte) :
    (s.answerHost r st res).pending = s.pending := rfl
@[simp] theorem State.answerHost_member (r : HostRequest) (st : Status) (res : List Byte) (q : Position) :
    (s.answerHost r st res).member q = s.member q := by unfold State.member; simp
@[simp] theorem State.answerHost_lease (r : HostRequest) (st : Status) (res : List Byte) (j : LeaseIndex) :
    (s.answerHost r st res).lease? j = s.lease? j := by unfold State.lease?; simp

/-! ### hostAnswered -/

@[simp] theorem State.hostAnswered_leases (c t : Byte) (ps : List Byte) (st : Status) (res : List Byte) :
    (s.hostAnswered c t ps st res).leases = s.leases := rfl
@[simp] theorem State.hostAnswered_engine (c t : Byte) (ps : List Byte) (st : Status) (res : List Byte) :
    (s.hostAnswered c t ps st res).engine = { s.engine with turn := .member } := rfl
@[simp] theorem State.hostAnswered_publisher (c t : Byte) (ps : List Byte) (st : Status) (res : List Byte) :
    (s.hostAnswered c t ps st res).publisher = s.publisher := rfl
@[simp] theorem State.hostAnswered_members (c t : Byte) (ps : List Byte) (st : Status) (res : List Byte) :
    (s.hostAnswered c t ps st res).members = s.members := rfl
@[simp] theorem State.hostAnswered_chain (c t : Byte) (ps : List Byte) (st : Status) (res : List Byte) :
    (s.hostAnswered c t ps st res).chain = s.chain := rfl
@[simp] theorem State.hostAnswered_localPort (c t : Byte) (ps : List Byte) (st : Status) (res : List Byte) :
    (s.hostAnswered c t ps st res).localPort = s.localPort := rfl
@[simp] theorem State.hostAnswered_attention (c t : Byte) (ps : List Byte) (st : Status) (res : List Byte) :
    (s.hostAnswered c t ps st res).attention = s.attention := rfl
@[simp] theorem State.hostAnswered_hostPort (c t : Byte) (ps : List Byte) (st : Status) (res : List Byte) :
    (s.hostAnswered c t ps st res).hostPort = { s.hostPort with slot := .answered ⟨c, t, ps⟩ (withCrc ([st.code.zeroExtend 8, t, c] ++ res)) } := rfl
@[simp] theorem State.hostAnswered_inReset (c t : Byte) (ps : List Byte) (st : Status) (res : List Byte) :
    (s.hostAnswered c t ps st res).inReset = s.inReset := rfl
@[simp] theorem State.hostAnswered_pending (c t : Byte) (ps : List Byte) (st : Status) (res : List Byte) :
    (s.hostAnswered c t ps st res).pending = s.pending := rfl
@[simp] theorem State.hostAnswered_member (c t : Byte) (ps : List Byte) (st : Status) (res : List Byte) (q : Position) :
    (s.hostAnswered c t ps st res).member q = s.member q := by unfold State.member; simp
@[simp] theorem State.hostAnswered_lease (c t : Byte) (ps : List Byte) (st : Status) (res : List Byte) (j : LeaseIndex) :
    (s.hostAnswered c t ps st res).lease? j = s.lease? j := by unfold State.lease?; simp

/-! ### startChain -/

@[simp] theorem State.startChain_leases (r : Rate) (m l : Nat) : (s.startChain r m l).leases = s.leases := rfl
@[simp] theorem State.startChain_engine (r : Rate) (m l : Nat) : (s.startChain r m l).engine = s.engine := rfl
@[simp] theorem State.startChain_publisher (r : Rate) (m l : Nat) :
    (s.startChain r m l).publisher = { s.publisher with epoch := 0 } := rfl
@[simp] theorem State.startChain_members (r : Rate) (m l : Nat) :
    (s.startChain r m l).members = { s.members with missLimit := some m, lastOpenCall := none } := rfl
@[simp] theorem State.startChain_chain (r : Rate) (m l : Nat) :
    (s.startChain r m l).chain = { ChainEngine.reset with state := .running, rate := r, lead := some l } := rfl
@[simp] theorem State.startChain_localPort (r : Rate) (m l : Nat) :
    (s.startChain r m l).localPort = LocalPort.silent := rfl
@[simp] theorem State.startChain_attention (r : Rate) (m l : Nat) :
    (s.startChain r m l).attention = s.attention := rfl
@[simp] theorem State.startChain_hostPort (r : Rate) (m l : Nat) : (s.startChain r m l).hostPort = s.hostPort := rfl
@[simp] theorem State.startChain_inReset (r : Rate) (m l : Nat) : (s.startChain r m l).inReset = s.inReset := rfl
@[simp] theorem State.startChain_pending (r : Rate) (m l : Nat) : (s.startChain r m l).pending = s.pending := rfl
@[simp] theorem State.startChain_lease (r : Rate) (m l : Nat) (j : LeaseIndex) :
    (s.startChain r m l).lease? j = s.lease? j := by unfold State.lease?; simp

/-! ### openFrame -/

@[simp] theorem State.openFrame_leases : (s.openFrame).leases = s.leases := rfl
@[simp] theorem State.openFrame_engine : (s.openFrame).engine = s.engine := rfl
@[simp] theorem State.openFrame_publisher : (s.openFrame).publisher = s.publisher := rfl
@[simp] theorem State.openFrame_members : (s.openFrame).members = s.members := rfl
@[simp] theorem State.openFrame_localPort : (s.openFrame).localPort = s.localPort.exchange := rfl
@[simp] theorem State.openFrame_attention : (s.openFrame).attention = s.attention := rfl
@[simp] theorem State.openFrame_hostPort : (s.openFrame).hostPort = s.hostPort := rfl
@[simp] theorem State.openFrame_inReset : (s.openFrame).inReset = s.inReset := rfl
@[simp] theorem State.openFrame_pending : (s.openFrame).pending = s.pending := rfl
@[simp] theorem State.openFrame_member (q : Position) :
    (s.openFrame).member q = s.member q := by unfold State.member; simp
@[simp] theorem State.openFrame_lease (j : LeaseIndex) :
    (s.openFrame).lease? j = s.lease? j := by unfold State.lease?; simp

/-! ### setMember -/

@[simp] theorem State.setMember_leases (p : Position) (m : Member) :
    (s.setMember p m).leases = s.leases := by unfold State.setMember; split <;> rfl
@[simp] theorem State.setMember_engine (p : Position) (m : Member) :
    (s.setMember p m).engine = s.engine := by unfold State.setMember; split <;> rfl
@[simp] theorem State.setMember_publisher (p : Position) (m : Member) :
    (s.setMember p m).publisher = s.publisher := by unfold State.setMember; split <;> rfl
@[simp] theorem State.setMember_chain (p : Position) (m : Member) :
    (s.setMember p m).chain = s.chain := by unfold State.setMember; split <;> rfl
@[simp] theorem State.setMember_localPort (p : Position) (m : Member) :
    (s.setMember p m).localPort = s.localPort := by unfold State.setMember; split <;> rfl
@[simp] theorem State.setMember_attention (p : Position) (m : Member) :
    (s.setMember p m).attention = s.attention := by unfold State.setMember; split <;> rfl
@[simp] theorem State.setMember_hostPort (p : Position) (m : Member) :
    (s.setMember p m).hostPort = s.hostPort := by unfold State.setMember; split <;> rfl
@[simp] theorem State.setMember_inReset (p : Position) (m : Member) :
    (s.setMember p m).inReset = s.inReset := by unfold State.setMember; split <;> rfl
@[simp] theorem State.setMember_pending (p : Position) (m : Member) :
    (s.setMember p m).pending = s.pending := by unfold State.setMember; split <;> rfl
@[simp] theorem State.setMember_lease (p : Position) (m : Member) (j : LeaseIndex) :
    (s.setMember p m).lease? j = s.lease? j := by unfold State.lease?; simp

/-! ### clearMisses -/

@[simp] theorem State.clearMisses_leases (p : Position) :
    (s.clearMisses p).leases = s.leases := by unfold State.clearMisses; simp
@[simp] theorem State.clearMisses_engine (p : Position) :
    (s.clearMisses p).engine = s.engine := by unfold State.clearMisses; simp
@[simp] theorem State.clearMisses_publisher (p : Position) :
    (s.clearMisses p).publisher = s.publisher := by unfold State.clearMisses; simp
@[simp] theorem State.clearMisses_chain (p : Position) :
    (s.clearMisses p).chain = s.chain := by unfold State.clearMisses; simp
@[simp] theorem State.clearMisses_localPort (p : Position) :
    (s.clearMisses p).localPort = s.localPort := by unfold State.clearMisses; simp
@[simp] theorem State.clearMisses_attention (p : Position) :
    (s.clearMisses p).attention = s.attention := by unfold State.clearMisses; simp
@[simp] theorem State.clearMisses_hostPort (p : Position) :
    (s.clearMisses p).hostPort = s.hostPort := by unfold State.clearMisses; simp
@[simp] theorem State.clearMisses_inReset (p : Position) :
    (s.clearMisses p).inReset = s.inReset := by unfold State.clearMisses; simp
@[simp] theorem State.clearMisses_pending (p : Position) :
    (s.clearMisses p).pending = s.pending := by unfold State.clearMisses; simp
@[simp] theorem State.clearMisses_lease (p : Position) (j : LeaseIndex) :
    (s.clearMisses p).lease? j = s.lease? j := by unfold State.lease?; simp

/-! ### raiseMember -/

@[simp] theorem State.raiseMember_leases (p : Position) (r : Reasons) :
    (s.raiseMember p r).leases = s.leases := by unfold State.raiseMember; split <;> rfl
@[simp] theorem State.raiseMember_engine (p : Position) (r : Reasons) :
    (s.raiseMember p r).engine = s.engine := by unfold State.raiseMember; split <;> rfl
@[simp] theorem State.raiseMember_publisher (p : Position) (r : Reasons) :
    (s.raiseMember p r).publisher = s.publisher := by unfold State.raiseMember; split <;> rfl
@[simp] theorem State.raiseMember_members (p : Position) (r : Reasons) :
    (s.raiseMember p r).members = s.members := by unfold State.raiseMember; split <;> rfl
@[simp] theorem State.raiseMember_chain (p : Position) (r : Reasons) :
    (s.raiseMember p r).chain = s.chain := by unfold State.raiseMember; split <;> rfl
@[simp] theorem State.raiseMember_localPort (p : Position) (r : Reasons) :
    (s.raiseMember p r).localPort = s.localPort := by unfold State.raiseMember; split <;> rfl
@[simp] theorem State.raiseMember_hostPort (p : Position) (r : Reasons) :
    (s.raiseMember p r).hostPort = s.hostPort := by unfold State.raiseMember; split <;> rfl
@[simp] theorem State.raiseMember_inReset (p : Position) (r : Reasons) :
    (s.raiseMember p r).inReset = s.inReset := by unfold State.raiseMember; split <;> rfl
@[simp] theorem State.raiseMember_pending (p : Position) (r : Reasons) :
    (s.raiseMember p r).pending = s.pending := by unfold State.raiseMember; split <;> rfl
@[simp] theorem State.raiseMember_member (p : Position) (r : Reasons) (q : Position) :
    (s.raiseMember p r).member q = s.member q := by unfold State.member; simp
@[simp] theorem State.raiseMember_lease (p : Position) (r : Reasons) (j : LeaseIndex) :
    (s.raiseMember p r).lease? j = s.lease? j := by unfold State.lease?; simp

/-! ### noteStaged -/

@[simp] theorem State.noteStaged_leases :
    (s.noteStaged).leases = s.leases := by unfold State.noteStaged; split <;> rfl
@[simp] theorem State.noteStaged_engine :
    (s.noteStaged).engine = s.engine := by unfold State.noteStaged; split <;> rfl
@[simp] theorem State.noteStaged_members :
    (s.noteStaged).members = s.members := by unfold State.noteStaged; split <;> rfl
@[simp] theorem State.noteStaged_chain : (s.noteStaged).chain = s.chain := by unfold State.noteStaged; split <;> rfl
@[simp] theorem State.noteStaged_localPort :
    (s.noteStaged).localPort = s.localPort := by unfold State.noteStaged; split <;> rfl
@[simp] theorem State.noteStaged_attention :
    (s.noteStaged).attention = s.attention := by unfold State.noteStaged; split <;> rfl
@[simp] theorem State.noteStaged_hostPort :
    (s.noteStaged).hostPort = s.hostPort := by unfold State.noteStaged; split <;> rfl
@[simp] theorem State.noteStaged_inReset :
    (s.noteStaged).inReset = s.inReset := by unfold State.noteStaged; split <;> rfl
@[simp] theorem State.noteStaged_pending :
    (s.noteStaged).pending = s.pending := by unfold State.noteStaged; split <;> rfl
@[simp] theorem State.noteStaged_member (q : Position) :
    (s.noteStaged).member q = s.member q := by unfold State.member; simp
@[simp] theorem State.noteStaged_lease (j : LeaseIndex) :
    (s.noteStaged).lease? j = s.lease? j := by unfold State.lease?; simp

/-! ### onEntry -/

@[simp] theorem State.onEntry_leases (i : LeaseIndex) (ev : EntryEvent) :
    (s.onEntry i ev).leases = s.leases.set i ev.entry := by unfold State.onEntry; dsimp only; split <;> simp
@[simp] theorem State.onEntry_engine (i : LeaseIndex) (ev : EntryEvent) :
    (s.onEntry i ev).engine = s.engine := by unfold State.onEntry; dsimp only; split <;> simp
@[simp] theorem State.onEntry_members (i : LeaseIndex) (ev : EntryEvent) :
    (s.onEntry i ev).members = s.members := by unfold State.onEntry; dsimp only; split <;> simp
@[simp] theorem State.onEntry_chain (i : LeaseIndex) (ev : EntryEvent) :
    (s.onEntry i ev).chain = s.chain := by unfold State.onEntry; dsimp only; split <;> simp
@[simp] theorem State.onEntry_localPort (i : LeaseIndex) (ev : EntryEvent) :
    (s.onEntry i ev).localPort = s.localPort := by unfold State.onEntry; dsimp only; split <;> simp
@[simp] theorem State.onEntry_attention (i : LeaseIndex) (ev : EntryEvent) :
    (s.onEntry i ev).attention = { s.attention with leases := s.attention.leases.set i (s.itemAfter i ev) } := by unfold State.onEntry; dsimp only; split <;> simp
@[simp] theorem State.onEntry_hostPort (i : LeaseIndex) (ev : EntryEvent) :
    (s.onEntry i ev).hostPort = s.hostPort := by unfold State.onEntry; dsimp only; split <;> simp
@[simp] theorem State.onEntry_inReset (i : LeaseIndex) (ev : EntryEvent) :
    (s.onEntry i ev).inReset = s.inReset := by unfold State.onEntry; dsimp only; split <;> simp
@[simp] theorem State.onEntry_pending (i : LeaseIndex) (ev : EntryEvent) :
    (s.onEntry i ev).pending = s.pending := by unfold State.onEntry; dsimp only; split <;> simp
@[simp] theorem State.onEntry_member (i : LeaseIndex) (ev : EntryEvent) (q : Position) :
    (s.onEntry i ev).member q = s.member q := by unfold State.member; simp

/-! ### onEveryEntry -/

@[simp] theorem State.onEveryEntry_leases (f : LeaseIndex → Entry → EntryEvent) :
    (s.onEveryEntry f).leases = Vector.ofFn fun i => (f i s.leases[i]).entry := by unfold State.onEveryEntry; dsimp only; split <;> simp
@[simp] theorem State.onEveryEntry_engine (f : LeaseIndex → Entry → EntryEvent) :
    (s.onEveryEntry f).engine = s.engine := by unfold State.onEveryEntry; dsimp only; split <;> simp
@[simp] theorem State.onEveryEntry_members (f : LeaseIndex → Entry → EntryEvent) :
    (s.onEveryEntry f).members = s.members := by unfold State.onEveryEntry; dsimp only; split <;> simp
@[simp] theorem State.onEveryEntry_chain (f : LeaseIndex → Entry → EntryEvent) :
    (s.onEveryEntry f).chain = s.chain := by unfold State.onEveryEntry; dsimp only; split <;> simp
@[simp] theorem State.onEveryEntry_localPort (f : LeaseIndex → Entry → EntryEvent) :
    (s.onEveryEntry f).localPort = s.localPort := by unfold State.onEveryEntry; dsimp only; split <;> simp
@[simp] theorem State.onEveryEntry_attention (f : LeaseIndex → Entry → EntryEvent) :
    (s.onEveryEntry f).attention = { s.attention with leases := Vector.ofFn fun i => s.itemAfter i (f i s.leases[i]) } := by unfold State.onEveryEntry; dsimp only; split <;> simp
@[simp] theorem State.onEveryEntry_hostPort (f : LeaseIndex → Entry → EntryEvent) :
    (s.onEveryEntry f).hostPort = s.hostPort := by unfold State.onEveryEntry; dsimp only; split <;> simp
@[simp] theorem State.onEveryEntry_inReset (f : LeaseIndex → Entry → EntryEvent) :
    (s.onEveryEntry f).inReset = s.inReset := by unfold State.onEveryEntry; dsimp only; split <;> simp
@[simp] theorem State.onEveryEntry_pending (f : LeaseIndex → Entry → EntryEvent) :
    (s.onEveryEntry f).pending = s.pending := by unfold State.onEveryEntry; dsimp only; split <;> simp
@[simp] theorem State.onEveryEntry_member (f : LeaseIndex → Entry → EntryEvent) (q : Position) :
    (s.onEveryEntry f).member q = s.member q := by unfold State.member; simp

/-! ### beginSet -/

@[simp] theorem State.beginSet_leases (ds : List Delta) : (s.beginSet ds).leases = s.leases := rfl
@[simp] theorem State.beginSet_engine (ds : List Delta) : (s.beginSet ds).engine = s.engine := rfl
@[simp] theorem State.beginSet_members (ds : List Delta) : (s.beginSet ds).members = s.members := rfl
@[simp] theorem State.beginSet_chain (ds : List Delta) : (s.beginSet ds).chain = s.chain := rfl
@[simp] theorem State.beginSet_localPort (ds : List Delta) : (s.beginSet ds).localPort = s.localPort := rfl
@[simp] theorem State.beginSet_attention (ds : List Delta) : (s.beginSet ds).attention = s.attention := rfl
@[simp] theorem State.beginSet_hostPort (ds : List Delta) : (s.beginSet ds).hostPort = s.hostPort := rfl
@[simp] theorem State.beginSet_inReset (ds : List Delta) : (s.beginSet ds).inReset = s.inReset := rfl
@[simp] theorem State.beginSet_pending (ds : List Delta) : (s.beginSet ds).pending = s.pending := rfl
@[simp] theorem State.beginSet_member (ds : List Delta) (q : Position) :
    (s.beginSet ds).member q = s.member q := by unfold State.member; simp
@[simp] theorem State.beginSet_lease (ds : List Delta) (j : LeaseIndex) :
    (s.beginSet ds).lease? j = s.lease? j := by unfold State.lease?; simp

/-! ### changeNotices -/

@[simp] theorem State.changeNotices_leases (f : List Notice → List Notice) :
    (s.changeNotices f).leases = s.leases := by unfold State.changeNotices; split <;> simp
@[simp] theorem State.changeNotices_engine (f : List Notice → List Notice) :
    (s.changeNotices f).engine = s.engine := by unfold State.changeNotices; split <;> simp
@[simp] theorem State.changeNotices_members (f : List Notice → List Notice) :
    (s.changeNotices f).members = s.members := by unfold State.changeNotices; split <;> simp
@[simp] theorem State.changeNotices_chain (f : List Notice → List Notice) :
    (s.changeNotices f).chain = s.chain := by unfold State.changeNotices; split <;> simp
@[simp] theorem State.changeNotices_localPort (f : List Notice → List Notice) :
    (s.changeNotices f).localPort = s.localPort := by unfold State.changeNotices; split <;> simp
@[simp] theorem State.changeNotices_attention (f : List Notice → List Notice) :
    (s.changeNotices f).attention = s.attention := by unfold State.changeNotices; split <;> simp
@[simp] theorem State.changeNotices_hostPort (f : List Notice → List Notice) :
    (s.changeNotices f).hostPort = s.hostPort := by unfold State.changeNotices; split <;> simp
@[simp] theorem State.changeNotices_inReset (f : List Notice → List Notice) :
    (s.changeNotices f).inReset = s.inReset := by unfold State.changeNotices; split <;> simp
@[simp] theorem State.changeNotices_pending (f : List Notice → List Notice) :
    (s.changeNotices f).pending = s.pending := by unfold State.changeNotices; split <;> simp
@[simp] theorem State.changeNotices_member (f : List Notice → List Notice) (q : Position) :
    (s.changeNotices f).member q = s.member q := by unfold State.member; simp
@[simp] theorem State.changeNotices_lease (f : List Notice → List Notice) (j : LeaseIndex) :
    (s.changeNotices f).lease? j = s.lease? j := by unfold State.lease?; simp

/-! ### joinMember -/

@[simp] theorem State.joinMember_leases (p : Position) :
    (s.joinMember p).leases = s.leases := by unfold State.joinMember; simp
@[simp] theorem State.joinMember_engine (p : Position) :
    (s.joinMember p).engine = s.engine := by unfold State.joinMember; simp
@[simp] theorem State.joinMember_publisher (p : Position) :
    (s.joinMember p).publisher = s.publisher := by unfold State.joinMember; simp
@[simp] theorem State.joinMember_localPort (p : Position) :
    (s.joinMember p).localPort = s.localPort := by unfold State.joinMember; simp
@[simp] theorem State.joinMember_hostPort (p : Position) :
    (s.joinMember p).hostPort = s.hostPort := by unfold State.joinMember; simp
@[simp] theorem State.joinMember_inReset (p : Position) :
    (s.joinMember p).inReset = s.inReset := by unfold State.joinMember; simp
@[simp] theorem State.joinMember_pending (p : Position) :
    (s.joinMember p).pending = s.pending := by unfold State.joinMember; simp
@[simp] theorem State.joinMember_lease (p : Position) (j : LeaseIndex) :
    (s.joinMember p).lease? j = s.lease? j := by unfold State.lease?; simp

/-! ### failAdmission -/

@[simp] theorem State.failAdmission_leases (p : Position) :
    (s.failAdmission p).leases = s.leases := by unfold State.failAdmission; simp
@[simp] theorem State.failAdmission_engine (p : Position) :
    (s.failAdmission p).engine = s.engine := by unfold State.failAdmission; simp
@[simp] theorem State.failAdmission_publisher (p : Position) :
    (s.failAdmission p).publisher = s.publisher := by unfold State.failAdmission; simp
@[simp] theorem State.failAdmission_localPort (p : Position) :
    (s.failAdmission p).localPort = s.localPort := by unfold State.failAdmission; simp
@[simp] theorem State.failAdmission_hostPort (p : Position) :
    (s.failAdmission p).hostPort = s.hostPort := by unfold State.failAdmission; simp
@[simp] theorem State.failAdmission_inReset (p : Position) :
    (s.failAdmission p).inReset = s.inReset := by unfold State.failAdmission; simp
@[simp] theorem State.failAdmission_pending (p : Position) :
    (s.failAdmission p).pending = s.pending := by unfold State.failAdmission; simp
@[simp] theorem State.failAdmission_lease (p : Position) (j : LeaseIndex) :
    (s.failAdmission p).lease? j = s.lease? j := by unfold State.lease?; simp

/-! ### releaseOne -/

@[simp] theorem State.releaseOne_leases (p : Position) :
    (s.releaseOne p).leases = s.leases := by unfold State.releaseOne; dsimp only; split <;> simp
@[simp] theorem State.releaseOne_engine (p : Position) :
    (s.releaseOne p).engine = s.engine := by unfold State.releaseOne; dsimp only; split <;> simp
@[simp] theorem State.releaseOne_publisher (p : Position) :
    (s.releaseOne p).publisher = s.publisher := by unfold State.releaseOne; dsimp only; split <;> simp
@[simp] theorem State.releaseOne_chain (p : Position) :
    (s.releaseOne p).chain = s.chain := by unfold State.releaseOne; dsimp only; split <;> simp
@[simp] theorem State.releaseOne_localPort (p : Position) :
    (s.releaseOne p).localPort = s.localPort := by unfold State.releaseOne; dsimp only; split <;> simp
@[simp] theorem State.releaseOne_hostPort (p : Position) :
    (s.releaseOne p).hostPort = s.hostPort := by unfold State.releaseOne; dsimp only; split <;> simp
@[simp] theorem State.releaseOne_inReset (p : Position) :
    (s.releaseOne p).inReset = s.inReset := by unfold State.releaseOne; dsimp only; split <;> simp
@[simp] theorem State.releaseOne_pending (p : Position) :
    (s.releaseOne p).pending = s.pending := by unfold State.releaseOne; dsimp only; split <;> simp
@[simp] theorem State.releaseOne_lease (p : Position) (j : LeaseIndex) :
    (s.releaseOne p).lease? j = s.lease? j := by unfold State.lease?; simp

/-! ### cascade -/

@[simp] theorem State.cascade_leases (k : Position) : (s.cascade k).leases = s.leases := by unfold State.cascade; simp
@[simp] theorem State.cascade_localPort (k : Position) :
    (s.cascade k).localPort = s.localPort := by unfold State.cascade; simp
@[simp] theorem State.cascade_hostPort (k : Position) :
    (s.cascade k).hostPort = s.hostPort := by unfold State.cascade; simp
@[simp] theorem State.cascade_inReset (k : Position) :
    (s.cascade k).inReset = s.inReset := by unfold State.cascade; simp
@[simp] theorem State.cascade_pending (k : Position) :
    (s.cascade k).pending = s.pending := by unfold State.cascade; simp
@[simp] theorem State.cascade_lease (k : Position) (j : LeaseIndex) :
    (s.cascade k).lease? j = s.lease? j := by unfold State.lease?; simp

end Sys2Proof.Machine
end

