-- ==== Sys2Proof/Laws/Ops.lean ====
section
/-! SUPPORT. For each shared operation, once, what it does. -/

namespace Sys2Proof.Machine

/-! ## Member records -/

theorem memberIndex_inj {p q : Position} (hp : p ≠ 0) (hq : q ≠ 0) (h : memberIndex p = memberIndex q) : p = q := by
  unfold memberIndex at h
  have := Fin.mk.inj h
  have hp' : p.val ≠ 0 := fun h => hp (Fin.ext h)
  have hq' : q.val ≠ 0 := fun h => hq (Fin.ext h)
  apply Fin.ext
  omega

theorem memberIndex_positionAt (k : Fin 15) : memberIndex (positionAt k) = k := by
  unfold memberIndex positionAt
  simp

theorem positionAt_ne_zero (k : Fin 15) : positionAt k ≠ 0 := by
  unfold positionAt
  intro h
  have := congrArg Fin.val h
  simp at this

theorem positionAt_memberIndex {p : Position} (hp : p ≠ 0) : positionAt (memberIndex p) = p := by
  have hp' : p.val ≠ 0 := fun h => hp (Fin.ext h)
  unfold memberIndex positionAt
  apply Fin.ext
  simp
  omega

@[simp] theorem State.member_zero (s : State) : s.member 0 = Member.vacant := by simp [State.member]

/-- Reading a record after writing one. -/
theorem State.member_setMember (s : State) (p : Position) (m : Member) (q : Position) :
    (s.setMember p m).member q = if q = p ∧ p ≠ 0 then m else s.member q := by
  unfold State.setMember State.member
  by_cases hp : p = 0
  · simp [hp]
  · by_cases hq : q = 0
    · simp [hp, hq]
      intro h; exact absurd h.symm hp
    · by_cases hpq : q = p
      · subst hpq; simp [hp]
      · have h' : memberIndex p ≠ memberIndex q := fun h => hpq (memberIndex_inj hp hq h).symm
        have h'' : (memberIndex p).val ≠ (memberIndex q).val := fun h => h' (Fin.ext h)
        simp [hp, hq, hpq, h'']

@[simp] theorem State.member_setMember_self (s : State) {p : Position} (hp : p ≠ 0) (m : Member) :
    (s.setMember p m).member p = m := by simp [State.member_setMember, hp]

theorem State.member_setMember_of_ne (s : State) {p q : Position} (h : q ≠ p) (m : Member) :
    (s.setMember p m).member q = s.member q := by simp [State.member_setMember, h]

/-! ## Taking a request -/

theorem State.hostRequest?_of_asks {s : State} {c t : Byte} {ps : List Byte} (h : s.HostAsks c t ps) :
    s.hostRequest? = some ⟨c, t, ps⟩ := by
  obtain ⟨h1, h2⟩ := h
  unfold State.hostRequest?
  rw [h1]
  simp [h2]

theorem State.memberRequest?_of_asks {s : State} {e : QueueEntry} {rest : List QueueEntry} (h : s.MemberAsks e rest) :
    s.memberRequest? = some (e, rest) := by
  obtain ⟨h1, h2⟩ := h
  unfold State.memberRequest?
  rw [h1]
  rcases h2 with h2 | h2
  · cases hs : s.hostPort.slot with
    | waiting r => exact absurd hs (h2 r)
    | _ => rfl
  · cases hs : s.hostPort.slot <;> simp [h2]

/-- A waiting request that passed every step is answered with what its meaning gives. -/
theorem State.takeHost_ok {s : State} {c t : Byte} {ps : List Byte} (h : s.HostAsks c t ps) {is : Byte → Bool}
    (hc : is c = true) {meaning : State → List Byte → Except Status HostAct} {a : HostAct}
    (ha : meaning s ps = .ok a) : s.takeHost is meaning = a.state.answerHost ⟨c, t, ps⟩ a.status a.result := by
  unfold State.takeHost
  rw [State.hostRequest?_of_asks h]
  simp [hc, ha]

/-- A waiting request that failed a step is answered with the status and changes nothing else. -/
theorem State.takeHost_error {s : State} {c t : Byte} {ps : List Byte} (h : s.HostAsks c t ps) {is : Byte → Bool}
    (hc : is c = true) {meaning : State → List Byte → Except Status HostAct} {st : Status}
    (ha : meaning s ps = .error st) : s.takeHost is meaning = s.answerHost ⟨c, t, ps⟩ st [] := by
  unfold State.takeHost
  rw [State.hostRequest?_of_asks h]
  simp [hc, ha]

/-- A request that waits no more, or is another command's, is not taken. -/
theorem State.takeHost_none {s : State} {is : Byte → Bool} {meaning : State → List Byte → Except Status HostAct}
    (h : ∀ r, s.hostRequest? = some r → is r.command = false) : s.takeHost is meaning = s := by
  unfold State.takeHost
  split
  · rfl
  · next r hr => simp [h r hr]

theorem State.takeMember_ok {s : State} {e : QueueEntry} {rest : List QueueEntry} (h : s.MemberAsks e rest)
    {op : BitVec 3} (ho : e.operation = op) {named : QueueEntry → Handle}
    {meaning : State → QueueEntry → Except Status MemberAct} {a : MemberAct}
    (ha : meaning { s with engine := { queue := rest, turn := .host } } e = .ok a) :
    s.takeMember op named meaning = a.state.pend e a.status a.handle a.result := by
  unfold State.takeMember
  rw [State.memberRequest?_of_asks h]
  simp [ho, ha]

theorem State.takeMember_error {s : State} {e : QueueEntry} {rest : List QueueEntry} (h : s.MemberAsks e rest)
    {op : BitVec 3} (ho : e.operation = op) {named : QueueEntry → Handle}
    {meaning : State → QueueEntry → Except Status MemberAct} {st : Status}
    (ha : meaning { s with engine := { queue := rest, turn := .host } } e = .error st) :
    s.takeMember op named meaning
      = ({ s with engine := { queue := rest, turn := .host } } : State).pend e st (named e) 0 := by
  unfold State.takeMember
  rw [State.memberRequest?_of_asks h]
  simp [ho, ha]

/-- The answer frame as R177 lays it out. -/
theorem State.answerHost_eq (s : State) (c t : Byte) (ps : List Byte) (st : Status) (res : List Byte) :
    s.answerHost ⟨c, t, ps⟩ st res = s.hostAnswered c t ps st (if st.carriesResult then res else []) := rfl

theorem State.pend_eq (s : State) (e : QueueEntry) (rest : List QueueEntry) (st : Status) (h : Handle) (r : BitVec 22)
    (hq : s.engine = { queue := rest, turn := .host }) :
    s.pend e st h r = s.memberAnswered e rest e.operation st h r := by
  unfold State.pend State.memberAnswered
  simp only [State.setMember_engine, ← hq]

/-! ## Events on one entry -/

/-- Nothing raised, nothing staged: the lease is put into its entry. -/
theorem State.onEntry_put (s : State) (i : LeaseIndex) (l : Lease) :
    s.onEntry i (s.leases[i].put l) = s.withLease i l := by
  unfold State.onEntry Entry.put State.withLease State.itemAfter raiseItems
  simp

/-- The same by a staging: the publisher hears of it. -/
theorem State.onEntry_stage (s : State) (i : LeaseIndex) (l : Lease) :
    s.onEntry i (s.leases[i].stage l) = (s.withLease i l).noteStaged := by
  unfold State.onEntry Entry.stage State.withLease State.itemAfter raiseItems
  simp

/-- An event that does not act on the entry changes nothing. -/
theorem State.onEntry_unchanged (s : State) (i : LeaseIndex) :
    s.onEntry i (.unchanged s.leases[i]) = s := by
  unfold State.onEntry EntryEvent.unchanged State.itemAfter raiseItems
  simp

/-- The entry goes FREE, with RETIRED unless the host asked for it. -/
theorem State.onEntry_free (s : State) (i : LeaseIndex) (byHost : Bool) :
    s.onEntry i (s.leases[i].free byHost)
      = if byHost then s.withFree i else (s.raiseLease i Reason.retired).withFree i := by
  unfold State.onEntry Entry.free Entry.freed State.withFree State.itemAfter raiseItems State.raiseLease
  cases byHost <;> simp

/-- One more reason, raised first, with the handle the entry had. -/
theorem State.onEntry_raising (s : State) (i : LeaseIndex) (ev : EntryEvent) (r : Reasons) :
    s.onEntry i (ev.raising r) = (s.raiseLease i r).onEntry i ev := by
  unfold State.onEntry EntryEvent.raising State.itemAfter raiseItems State.raiseLease
  simp

/-- What an event on every entry makes of one entry. -/
theorem State.onEveryEntry_entry (s : State) (f : LeaseIndex → Entry → EntryEvent) (i : LeaseIndex) :
    (s.onEveryEntry f).leases[i] = (f i s.leases[i]).entry := by
  simp

theorem State.onEntry_entry_self (s : State) (i : LeaseIndex) (ev : EntryEvent) :
    (s.onEntry i ev).leases[i] = ev.entry := by simp

theorem State.onEntry_entry_of_ne (s : State) {i j : LeaseIndex} (h : j ≠ i) (ev : EntryEvent) :
    (s.onEntry i ev).leases[j] = s.leases[j] := by
  have : i.val ≠ j.val := fun e => h (Fin.ext e.symm)
  simp [this]

/-! ## Telling the publisher -/

/-- A change staged in AUTO mode while the publisher is IDLE and the chain RUNNING opens a window (R76). -/
theorem State.noteStaged_opens {s : State} (h1 : s.publisher.mode = .auto) (h2 : s.publisher.stage = .idle)
    (h3 : s.chain.state = .running) :
    s.noteStaged = s.setStage (.batching (sealFrameFrom s.chain.counter s.publisher.window)) := by
  unfold State.noteStaged
  simp [h1, h2, h3, State.setStage]

/-- In any other case the publisher stays as it is. -/
theorem State.noteStaged_stays {s : State}
    (h : ¬(s.publisher.mode = .auto ∧ s.publisher.stage = .idle ∧ s.chain.state = .running)) : s.noteStaged = s := by
  unfold State.noteStaged
  simp [h]

end Sys2Proof.Machine
end

