-- ==== Sys2Proof/WellFormed.lean ====
section
/-! DEFINITION. Which commands are well formed: their operands are ones the event can have. -/

namespace Sys2Proof

/-- The selector byte names one of the three transactions (section 11.2). -/
def knownSelector (b : Byte) : Bool :=
  b == Config.selRequestWrite || b == Config.selAnswerRead || b == Config.selStatusRead

/-- An unknown selector names no transaction (R173); the position of a loss or of a failed admission
is a member's (R113). Every other command is well formed with every operand its type admits. -/
def WellFormed : Instr → Bool
  | .unknownSelector b => !knownSelector b
  | .memberLoss p => p != 0
  | .admissionFailure p => p != 0
  | _ => true

end Sys2Proof
end

