-- ==== Sys2Proof/Laws/PerInstr.lean ====
section
/-! SUPPORT. Which commands are ill formed, command by command. -/

namespace Sys2Proof.Laws.IllFormed

open Sys2Proof

/-- A command is ill formed only where its operand is one that the event cannot have: an unknown selector that
names a transaction (R173), or the head as the position of a loss or of a failed admission (R113). -/
def Statement (i : Instr) : Prop :=
  WellFormed i = false →
    i = .unknownSelector Config.selRequestWrite ∨ i = .unknownSelector Config.selAnswerRead
      ∨ i = .unknownSelector Config.selStatusRead ∨ i = .memberLoss 0 ∨ i = .admissionFailure 0

theorem requestWrite (frame : List Byte) (strayBits : Fin 8) : Statement (.requestWrite frame strayBits) := fun h => Bool.noConfusion h

theorem answerRead (moment : ReadMoment) : Statement (.answerRead moment) := fun h => Bool.noConfusion h

theorem statusRead : Statement .statusRead := fun h => Bool.noConfusion h

theorem unknownSelector (selector : Byte) : Statement (.unknownSelector selector) := by
  intro h
  have h' : knownSelector selector = true := by simpa [WellFormed] using h
  unfold knownSelector at h'
  rw [Bool.or_eq_true, Bool.or_eq_true, beq_iff_eq, beq_iff_eq, beq_iff_eq] at h'
  rcases h' with (h' | h') | h' <;> simp [h']

theorem deviceReset : Statement .deviceReset := fun h => Bool.noConfusion h

theorem resetEnd : Statement .resetEnd := fun h => Bool.noConfusion h

theorem create : Statement .create := fun h => Bool.noConfusion h

theorem shape : Statement .shape := fun h => Bool.noConfusion h

theorem addListener : Statement .addListener := fun h => Bool.noConfusion h

theorem dropListener : Statement .dropListener := fun h => Bool.noConfusion h

theorem retire : Statement .retire := fun h => Bool.noConfusion h

theorem renew : Statement .renew := fun h => Bool.noConfusion h

theorem setRights : Statement .setRights := fun h => Bool.noConfusion h

theorem bindLocal : Statement .bindLocal := fun h => Bool.noConfusion h

theorem query : Statement .query := fun h => Bool.noConfusion h

theorem resolve : Statement .resolve := fun h => Bool.noConfusion h

theorem repack : Statement .repack := fun h => Bool.noConfusion h

theorem publish : Statement .publish := fun h => Bool.noConfusion h

theorem setPublishing : Statement .setPublishing := fun h => Bool.noConfusion h

theorem readMember : Statement .readMember := fun h => Bool.noConfusion h

theorem setExpected : Statement .setExpected := fun h => Bool.noConfusion h

theorem setAdmission : Statement .setAdmission := fun h => Bool.noConfusion h

theorem chainStart : Statement .chainStart := fun h => Bool.noConfusion h

theorem chainStop : Statement .chainStop := fun h => Bool.noConfusion h

theorem fetchAttention : Statement .fetchAttention := fun h => Bool.noConfusion h

theorem readStatus : Statement .readStatus := fun h => Bool.noConfusion h

theorem unknownCommand : Statement .unknownCommand := fun h => Bool.noConfusion h

theorem memberCreate : Statement .memberCreate := fun h => Bool.noConfusion h

theorem memberShape : Statement .memberShape := fun h => Bool.noConfusion h

theorem listen : Statement .listen := fun h => Bool.noConfusion h

theorem quit : Statement .quit := fun h => Bool.noConfusion h

theorem memberRetire : Statement .memberRetire := fun h => Bool.noConfusion h

theorem memberRenew : Statement .memberRenew := fun h => Bool.noConfusion h

theorem memberResolve : Statement .memberResolve := fun h => Bool.noConfusion h

theorem memberOpNone : Statement .memberOpNone := fun h => Bool.noConfusion h

theorem frameStart : Statement .frameStart := fun h => Bool.noConfusion h

theorem expiry (lease : LeaseIndex) : Statement (.expiry lease) := fun h => Bool.noConfusion h

theorem batchWindowEnd : Statement .batchWindowEnd := fun h => Bool.noConfusion h

theorem setApplication : Statement .setApplication := fun h => Bool.noConfusion h

theorem controlMessageChoice : Statement .controlMessageChoice := fun h => Bool.noConfusion h

theorem responseWord (word : ChainWord) : Statement (.responseWord word) := fun h => Bool.noConfusion h

theorem downRegionDrive : Statement .downRegionDrive := fun h => Bool.noConfusion h

theorem upSlotRead (lease : LeaseIndex) (slot : Fin 8) (region : BitVec 440) : Statement (.upSlotRead lease slot region) := fun h => Bool.noConfusion h

theorem memberLoss (position : Position) : Statement (.memberLoss position) := by
  intro h
  simp [WellFormed] at h
  simp [h]

theorem admissionFailure (position : Position) : Statement (.admissionFailure position) := by
  intro h
  simp [WellFormed] at h
  simp [h]

theorem lbckPeriod (lsdi : Bool) : Statement (.lbckPeriod lsdi) := fun h => Bool.noConfusion h

theorem selectPeriodStart : Statement .selectPeriodStart := fun h => Bool.noConfusion h

end Sys2Proof.Laws.IllFormed
end

