-- ==== Sys2Proof/Laws/Placement.lean ====
section
/-! SUPPORT. What the Placement Unit answers: the search against the other leases' claims, bit by bit. -/

namespace Sys2Proof.Machine

/-- The test on two runs is exact: they meet when some bit of some hop lies in both. -/
theorem Run.meets_eq_false_iff (a b : Run) : a.meets b = false ↔ a.Apart b := by
  unfold Run.meets Run.Apart Run.Covers
  constructor
  · intro h hop bit hc
    simp only [Bool.and_eq_false_iff, decide_eq_false_iff_not] at h
    omega
  · intro h
    by_contra hm
    simp only [Bool.not_eq_false, Bool.and_eq_true, decide_eq_true_eq] at hm
    exact h (max a.firstHop b.firstHop) (max a.offset b.offset) (by omega)

theorem Run.Apart.symm {a b : Run} (h : a.Apart b) : b.Apart a := fun hop bit hc => h hop bit hc.symm

/-- The claims that a search for the lease at `i` counts are those of the other leases in the direction (R28). -/
theorem State.mem_otherClaims {s : State} {i : LeaseIndex} {d : Direction} {r : Run} :
    r ∈ s.otherClaims i d ↔ ∃ j l, j ≠ i ∧ s.lease? j = some l ∧ l.direction = d ∧ r ∈ l.claims := by
  unfold State.otherClaims allLeases
  simp only [List.mem_flatMap, List.mem_finRange, true_and]
  constructor
  · rintro ⟨j, hj⟩
    split at hj
    · simp at hj
    · next hne =>
      split at hj
      · next l hl =>
        split at hj
        · next hd => exact ⟨j, l, hne, hl, hd, hj⟩
        · simp at hj
      · simp at hj
  · rintro ⟨j, l, hne, hl, hd, hr⟩
    exact ⟨j, by simp [hne, hl, hd, hr]⟩

/-- The search's test of one offset. -/
theorem State.fitsAmong_iff {s : State} {i : LeaseIndex} {d : Direction} {source : Position} {c : Configuration} {o : Nat} :
    fitsAmong (s.otherClaims i d) (c.runAt d source o) = true ↔ s.FitsAt i d source c o := by
  unfold fitsAmong State.FitsAt
  rw [Bool.and_eq_true, decide_eq_true_eq, List.all_eq_true]
  refine and_congr Iff.rfl ⟨?_, ?_⟩
  · intro h j l hne hl hd r hr
    have := h r (State.mem_otherClaims.2 ⟨j, l, hne, hl, hd, hr⟩)
    rw [Bool.not_eq_true'] at this
    exact (Run.meets_eq_false_iff _ _).1 this
  · intro h r hr
    obtain ⟨j, l, hne, hl, hd, hr⟩ := State.mem_otherClaims.1 hr
    rw [Bool.not_eq_true']
    exact (Run.meets_eq_false_iff _ _).2 (h j l hne hl hd r hr)

/-- First-fit answers an offset that fits and below which none fits. -/
theorem State.firstFit_some {s : State} {i : LeaseIndex} {d : Direction} {source : Position} {c : Configuration} {o : Nat}
    (h : firstFit (s.otherClaims i d) d source c = some o) :
    s.FitsAt i d source c o ∧ ∀ o', o' < o → ¬s.FitsAt i d source c o' := by
  unfold firstFit at h
  rw [List.find?_eq_some_iff_getElem] at h
  obtain ⟨h1, k, hk, rfl, h2⟩ := h
  simp only [List.getElem_range] at h1 h2 ⊢
  refine ⟨State.fitsAmong_iff.1 h1, fun o' ho' hf => ?_⟩
  have := h2 o' ho'
  rw [Bool.not_eq_true'] at this
  rw [State.fitsAmong_iff.2 hf] at this
  exact absurd this (by simp)

theorem State.firstFit_none {s : State} {i : LeaseIndex} {d : Direction} {source : Position} {c : Configuration}
    (h : firstFit (s.otherClaims i d) d source c = none) (hc : 1 ≤ c.cost) (o : Nat) : ¬s.FitsAt i d source c o := by
  intro hf
  unfold firstFit at h
  rw [List.find?_eq_none] at h
  have hlt : o < Config.regionBits := by have := hf.1; simp only [Config.regionBits]; omega
  have := h o (List.mem_range.2 hlt)
  exact this (State.fitsAmong_iff.2 hf)

/-- A configuration of at least one slot costs at least ten bus bits (R7). -/
theorem Configuration.cost_pos {c : Configuration} (h : 1 ≤ c.count) : 1 ≤ c.cost := by
  unfold Configuration.cost
  have : 1 ≤ c.width.bits + 2 := by omega
  calc 1 = 1 * 1 := rfl
    _ ≤ c.count * (c.width.bits + 2) := Nat.mul_le_mul h this

/-- Everything the Placement Unit can answer: nothing to place, the offset of R32 and R33, or NO_ROOM. -/
theorem State.placeFor_cases (s : State) (i : LeaseIndex) (d : Direction) (source : Position) (c : Configuration)
    (tried : Option Nat) (hc : 1 ≤ c.count) :
    (c.listeners = 0 ∧ s.placeFor i d source c tried = some { c with placement := none })
    ∨ (c.listeners ≠ 0 ∧ ∃ o, s.placeFor i d source c tried = some { c with placement := some o }
        ∧ s.PlacedAt i d source c tried o)
    ∨ (c.listeners ≠ 0 ∧ s.placeFor i d source c tried = none ∧ ∀ o, ¬s.FitsAt i d source c o) := by
  unfold State.placeFor
  by_cases hl : c.listeners = 0
  · exact .inl ⟨hl, by simp [hl]⟩
  · simp only [hl, if_false]
    refine .inr ?_
    have first : ∀ o, (∀ o', tried = some o' → ¬s.FitsAt i d source c o') →
        firstFit (s.otherClaims i d) d source c = some o → s.PlacedAt i d source c tried o := by
      intro o ht h
      obtain ⟨h1, h2⟩ := State.firstFit_some h
      refine ⟨h1, .inr fun o' ho' => ?_⟩
      rcases ho' with ho' | ho'
      · exact ht o' ho'
      · exact h2 o' ho'
    unfold placeFrom
    cases tried with
    | some t =>
      dsimp only
      by_cases hf : fitsAmong (s.otherClaims i d) (c.runAt d source t) = true
      · exact .inl ⟨hl, t, by simp [hf], State.fitsAmong_iff.1 hf, .inl rfl⟩
      · simp only [hf, if_false, Bool.false_eq_true]
        have ht : ∀ o', some t = some o' → ¬s.FitsAt i d source c o' := by
          rintro o' h hfit
          obtain rfl := Option.some.inj h
          exact hf (State.fitsAmong_iff.2 hfit)
        cases hff : firstFit (s.otherClaims i d) d source c with
        | some o => exact .inl ⟨hl, o, rfl, first o ht hff⟩
        | none => exact .inr ⟨hl, rfl, State.firstFit_none hff (Configuration.cost_pos hc)⟩
    | none =>
      dsimp only
      cases hff : firstFit (s.otherClaims i d) d source c with
      | some o => exact .inl ⟨hl, o, rfl, first o (by simp) hff⟩
      | none => exact .inr ⟨hl, rfl, State.firstFit_none hff (Configuration.cost_pos hc)⟩

/-- The offset that R32 and R33 give is one. -/
theorem State.PlacedAt.unique {s : State} {i : LeaseIndex} {d : Direction} {source : Position} {c : Configuration}
    {tried : Option Nat} {o o' : Nat} (h : s.PlacedAt i d source c tried o) (h' : s.PlacedAt i d source c tried o') :
    o = o' := by
  obtain ⟨hf, h⟩ := h
  obtain ⟨hf', h'⟩ := h'
  rcases h with h | h <;> rcases h' with h' | h'
  · rw [h] at h'; exact Option.some.inj h'
  · exact absurd hf (h' o (.inl h))
  · exact absurd hf' (h o' (.inl h'))
  · rcases Nat.lt_trichotomy o o' with hlt | rfl | hlt
    · exact absurd hf (h' o (.inr hlt))
    · rfl
    · exact absurd hf' (h o' (.inr hlt))

end Sys2Proof.Machine
end

