-- ==== Sys2Proof/Laws/Requests.lean ====
section
/-! SUPPORT. The checks of the validation order, each as what it says of the state. -/

namespace Sys2Proof.Machine

theorem any_iff {α : Type} {o : Option α} {p : α → Bool} : o.any p = true ↔ ∃ x, o = some x ∧ p x = true := by
  cases o <;> simp

/-! ## The maps -/

theorem State.streamMap_eq_none {s : State} {n : Stream} :
    s.streamMap n = none ↔ ∀ i l, s.lease? i = some l → l.stream ≠ n := by
  unfold State.streamMap allLeases
  rw [List.find?_eq_none]
  constructor
  · intro h i l hl hs
    exact h i (List.mem_finRange i) (by simp [hl, hs])
  · intro h i _ hi
    obtain ⟨l, h1, h2⟩ := any_iff.1 hi
    exact h i l h1 (by simpa using h2)

theorem State.streamMap_some {s : State} {n : Stream} {i : LeaseIndex} (h : s.streamMap n = some i) :
    ∃ l, s.lease? i = some l ∧ l.stream = n := by
  unfold State.streamMap at h
  have := List.find?_some h
  obtain ⟨l, h1, h2⟩ := any_iff.1 this
  exact ⟨l, h1, by simpa using h2⟩

theorem State.lowestFree_some {s : State} {i : LeaseIndex} : s.lowestFree = some i ↔ s.LowestFree i := by
  unfold State.lowestFree State.LowestFree allLeases
  rw [List.find?_eq_some_iff_getElem]
  constructor
  · rintro ⟨h1, k, hk, rfl, h2⟩
    refine ⟨by simpa using h1, fun j hj hn => ?_⟩
    have := h2 j.val (by simpa [Fin.lt_def] using hj)
    simp only [List.getElem_finRange, Bool.not_eq_true', Option.isNone_eq_false_iff] at this
    rw [Option.isSome_iff_ne_none] at this
    exact this hn
  · rintro ⟨h1, h2⟩
    refine ⟨by simp [h1], i.val, by simp, by simp, fun j hj => ?_⟩
    simp only [List.getElem_finRange, Bool.not_eq_true', Option.isNone_eq_false_iff]
    exact Option.isSome_iff_ne_none.2 (h2 ⟨j, by omega⟩ hj)

theorem State.lowestFree_none {s : State} : s.lowestFree = none ↔ ∀ i, s.lease? i ≠ none := by
  unfold State.lowestFree allLeases
  rw [List.find?_eq_none]
  simp

/-! ## Checks on positions -/

theorem State.usable_iff {s : State} {p : Position} : s.usable p = true ↔ p = 0 ∨ s.joined p = true := by
  simp [State.usable]

theorem mem_allPositions (p : Position) : p ∈ allPositions := by revert p; decide

theorem everyListener_iff {l : Listeners} {ok : Position → Bool} :
    everyListener l ok = true ↔ ∀ p, hasListener l p = true → ok p = true := by
  unfold everyListener
  rw [List.all_eq_true]
  constructor
  · intro h p hp
    have := h p (mem_allPositions p)
    simpa [hp] using this
  · intro h p _
    by_cases hp : hasListener l p = true
    · simp [h p hp]
    · simp [hp]

theorem onSide_ne {d : Direction} {source p : Position} (h : onSide d source p = true) : p ≠ source := by
  rintro rfl
  cases d <;> simp [onSide] at h

/-! ## Channels -/

theorem Lease.reservation_covers {l : Lease} {c : Nat} :
    (l.reservation.any fun r => decide (r.1 ≤ c) && decide (c < r.1 + r.2)) = true ↔ l.Reserves c := by
  unfold Lease.reservation Lease.Reserves
  cases hb : l.base with
  | none => simp
  | some b => simp

/-- Every lease that the map could give for a channel passes the test exactly when no other reserves it. -/
theorem State.channelMap_all {s : State} {c : Nat} {i : Option LeaseIndex} :
    (∀ j, s.channelMap c = some j → some j = i) → s.ChannelsLawful → s.ChannelFreeFor i c := by
  intro h hl j l hne hj b hb hc
  have hr : l.Reserves c := ⟨b, hb, hc.1, hc.2⟩
  cases hm : s.channelMap c with
  | none =>
    unfold State.channelMap at hm
    rw [List.find?_eq_none] at hm
    refine hm j (List.mem_finRange j) ?_
    simp only [hj, Option.any_some]
    exact Lease.reservation_covers.2 hr
  | some k =>
    have hk := h k hm
    unfold State.channelMap at hm
    have hm := List.find?_some hm
    obtain ⟨m, h1, h2⟩ := any_iff.1 hm
    have hr' := Lease.reservation_covers.1 h2
    have : j = k := hl.apart j k l m c hj h1 hr hr'
    exact hne (this ▸ hk)

theorem State.channelMap_free {s : State} {c : Nat} {i : Option LeaseIndex} (h : s.ChannelFreeFor i c) (j : LeaseIndex)
    (hj : s.channelMap c = some j) : some j = i := by
  by_contra hne
  unfold State.channelMap at hj
  have hm := List.find?_some hj
  obtain ⟨l, h1, h2⟩ := any_iff.1 hm
  obtain ⟨b, hb, h3, h4⟩ := Lease.reservation_covers.1 h2
  exact h j l hne h1 b hb ⟨h3, h4⟩

/-! ## The target and lease-state steps -/

theorem State.lease?_of_entry {s : State} {i : LeaseIndex} {g : Generation} {l : Lease}
    (h : s.leases[i] = ⟨g, some l⟩) : s.lease? i = some l := by simp [State.lease?, h]

theorem State.target_names {s : State} {h : Handle} {l : Lease} {st : LeaseState} (hn : s.Names h l st)
    (inRetiring inGoing : Bool) :
    s.target h inRetiring inGoing
      = match st with
        | .live => .ok l
        | .retiring => if inRetiring then .ok l else .error .gone
        | .going => if inGoing then .ok l else .error .gone := by
  obtain ⟨h1, h2⟩ := hn
  have h3 := congrArg Entry.generation h1
  unfold State.target
  rw [State.lease?_of_entry h1]
  simp only [h3, if_true, h2]
  cases st <;> rfl

theorem State.target_stale {s : State} {h : Handle} (hs : ∀ l, s.leases[h.index] ≠ ⟨h.generation, some l⟩)
    (inRetiring inGoing : Bool) : s.target h inRetiring inGoing = .error .staleHandle := by
  unfold State.target State.lease?
  cases hl : s.leases[h.index].lease with
  | none => rfl
  | some l =>
    have : s.leases[h.index].generation ≠ h.generation := by
      intro hg
      exact hs l (by cases he : s.leases[h.index]; simp_all [-Fin.getElem_fin])
    simp only [this, if_false]

/-- What passed the two steps is the lease the handle names. -/
theorem State.target_ok {s : State} {h : Handle} {a b : Bool} {l : Lease} (ht : s.target h a b = .ok l) :
    s.leases[h.index] = ⟨h.generation, some l⟩ := by
  unfold State.target State.lease? at ht
  cases hl : s.leases[h.index].lease with
  | none => rw [hl] at ht; exact absurd ht (by simp)
  | some m =>
    simp only [hl] at ht
    split at ht
    · next hg =>
      have : m = l := by
        split at ht
        · exact Except.ok.inj ht
        · split at ht
          · exact Except.ok.inj ht
          · exact absurd ht (by simp)
        · split at ht
          · exact Except.ok.inj ht
          · exact absurd ht (by simp)
      subst this
      cases he : s.leases[h.index]
      simp_all [-Fin.getElem_fin]
    · exact absurd ht (by simp)

/-! ## New configurations and retirements -/

theorem Lease.atOnce_iff {l : Lease} {c : Configuration} : l.atOnce c = true ↔ l.Unplaced ∧ c.listeners = 0 := by
  unfold Lease.atOnce Lease.Unplaced Lease.sealedConfig Configuration.placed
  cases hs : l.sealed with
  | none => cases ht : l.staged <;> simp [and_assoc]
  | some x => cases x <;> cases ht : l.staged <;> simp [and_assoc]

theorem Lease.retiresAtOnce_iff {l : Lease} : l.retiresAtOnce = true ↔ l.NothingInFlight := by
  unfold Lease.retiresAtOnce Lease.NothingInFlight Configuration.placed
  cases ht : l.staged <;> simp [and_assoc]

end Sys2Proof.Machine
end

