-- ==== Sys2Proof/Laws/Slots.lean ====
section
/-! SUPPORT. The bits of a slot, as the head reads them from the UP region. -/

namespace Sys2Proof.Machine

/-- Bit j behind the first bit of a slot is the region's bit j behind it (R24). -/
theorem slotFromRegion_getMsbD (region : BitVec 440) (o : Nat) (w : Width) (k j : Nat) (h : j < 34) :
    (slotFromRegion region o w k).getMsbD j = region.getMsbD (o + k * (w.bits + 2) + j) := by
  unfold slotFromRegion
  generalize o + k * (w.bits + 2) = first
  rw [BitVec.getMsbD_eq_getLsbD, BitVec.getLsbD_extractLsb', BitVec.getLsbD_shiftLeft, BitVec.getMsbD_eq_getLsbD]
  have h1 : decide (j < 34) = true := by simp [h]
  have h2 : decide (34 - 1 - j < 34) = true := by simp; omega
  have h3 : decide (406 + (34 - 1 - j) < 440) = true := by simp; omega
  rw [h1, h2, h3]
  by_cases hf : first + j < 440
  · have e : 406 + (34 - 1 - j) - first = 440 - 1 - (first + j) := by omega
    have h4 : decide (406 + (34 - 1 - j) < first) = false := by simp; omega
    rw [h4, e]
    simp [hf]
  · have h4 : decide (406 + (34 - 1 - j) < first) = true := by simp; omega
    simp [h4, hf]

theorem foldl_xor_eq (f : Nat → Bool) (ks : List Nat) (b : Bool) :
    ks.foldl (fun p k => xor p (f k)) b = xor b (decide (ks.countP f % 2 = 1)) := by
  induction ks generalizing b with
  | nil => simp
  | cons k ks ih =>
    rw [List.foldl_cons, ih, List.countP_cons]
    rcases Nat.mod_two_eq_zero_or_one (ks.countP f) with h | h <;> cases hf : f k <;> cases b <;> simp [h, Nat.add_mod]

/-- The parity over the first n bits is good exactly when their ones are even in number (R24). -/
theorem evenOnes_iff {m : Nat} (bits : BitVec m) (n : Nat) : evenOnes bits n = true ↔ EvenOnes bits 0 n := by
  unfold evenOnes EvenOnes bitAt
  rw [foldl_xor_eq]
  simp only [Nat.zero_add]
  rcases Nat.mod_two_eq_zero_or_one ((List.range n).countP fun k => bits.getMsbD k) with h | h <;> simp [h]

/-- The data of a slot are its first w bits, with zeros behind them (R160). -/
theorem slotData_getMsbD (w : Width) (bits : BitVec 34) (j : Nat) (h : j < 32) :
    (slotData w bits).getMsbD j = (decide (j < w.bits) && bits.getMsbD j) := by
  have hw : w.bits ≤ 32 := by cases w <;> decide
  unfold slotData topBits fieldAt
  rw [BitVec.getMsbD_eq_getLsbD, BitVec.getLsbD_shiftLeft, BitVec.getLsbD_ushiftRight, BitVec.getLsbD_extractLsb',
    BitVec.getMsbD_eq_getLsbD]
  by_cases hj : j < w.bits
  · have e : 34 - 0 - 32 + (32 - w.bits + (32 - 1 - j - (32 - w.bits))) = 34 - 1 - j := by omega
    have h1 : ¬32 - 1 - j < 32 - w.bits := by omega
    have h2 : 32 - w.bits + (32 - 1 - j - (32 - w.bits)) < 32 := by omega
    rw [e]
    simp [hj, h, h1, h2, show j < 34 by omega]
    intro _
    omega
  · have h1 : 32 - 1 - j < 32 - w.bits := by omega
    simp [hj, h1]

/-- Everything that a slot which the head does not read leaves, and one that it reads (R150). -/
theorem State.readSlot_cases (s : State) (i : LeaseIndex) (k : Fin 8) (region : BitVec 440) :
    (s.readSlot i k region = s
      ∧ ∀ l o, s.lease? i = some l → l.active.placement = some o → s.readsSlot i l k = false)
    ∨ ∃ l o, s.lease? i = some l ∧ l.active.placement = some o ∧ s.readsSlot i l k = true
      ∧ s.readSlot i k region = s.takeSlot i l k (slotFromRegion region o l.active.width k.val) := by
  unfold State.readSlot
  cases hl : s.lease? i with
  | none => exact Or.inl ⟨rfl, fun _ _ h => by cases h⟩
  | some l =>
    cases ho : l.active.placement with
    | none => exact Or.inl ⟨by simp only [ho], fun l' o h h' => by cases h; rw [ho] at h'; cases h'⟩
    | some o =>
      cases hr : s.readsSlot i l k with
      | false => exact Or.inl ⟨by simp only [ho, hr]; rfl, fun l' _ h _ => by cases h; exact hr⟩
      | true => exact Or.inr ⟨l, o, rfl, ho, hr, by simp only [ho, hr]; rfl⟩

end Sys2Proof.Machine
end

