-- ==== Sys2Proof/Tests/Slice0.lean ====
section
/-! SUPPORT. Small tests: the operand checks, the manual's own examples one step at a time, and states that
meet the hypotheses of the statements. -/

namespace Sys2Proof.Tests

set_option Elab.async false

open Sys2Proof Sys2Proof.Machine

/-! ## Operand checks -/

theorem test_wellFormed_knownSelector_refused :
    WellFormed (.unknownSelector 0x1D) = false ∧ WellFormed (.unknownSelector 0x2E) = false
      ∧ WellFormed (.unknownSelector 0x3B) = false ∧ WellFormed (.unknownSelector 0x1E) = true := by decide +kernel

theorem test_wellFormed_headIsNoMember_refused :
    WellFormed (.memberLoss 0) = false ∧ WellFormed (.admissionFailure 0) = false
      ∧ WellFormed (.memberLoss 1) = true ∧ WellFormed (.admissionFailure 15) = true := by decide +kernel

/-- No row of the table gives bits: no word spells a command. -/
theorem test_decode_noRowGivesBits : decodeTableWord 8 0x1D = none ∧ State.reset.withFetchWord 8 0x1D = State.reset :=
  ⟨rfl, rfl⟩

/-! ## States for the tests -/

/-- The state after a command. -/
def after (c : Instr) (s : State) : State :=
  match exec c s with
  | .next t => t
  | _ => s

/-- A host request of tag 41 waits. -/
def asks (s : State) (code : Byte) (ps : List Byte) : State :=
  { s with hostPort := { s.hostPort with slot := .waiting ⟨code, 41, ps⟩ } }

/-- A member request waits alone. -/
def queues (s : State) (p : Position) (payload : BitVec 40) : State :=
  { s with engine := ⟨[⟨p, payload, false⟩], .member⟩ }

/-- An entry holds a lease, with generation 0. -/
def holds (s : State) (i : LeaseIndex) (l : Lease) : State := { s with leases := s.leases.set i ⟨0, some l⟩ }

/-- A position is in a state, with an identity whose limits are 4 and 4. -/
def stands (s : State) (p : Position) (st : MemberState) : State :=
  s.setMember p { Member.vacant with state := st, identity := some ⟨100, 5, 1, 4, 4⟩ }

/-- Frame n of a running chain with miss limit 4 and switch lead 8, after the choice of its message if one is given. -/
def framed (s : State) (n : FrameNumber) (m : Option Message) : State :=
  { s with
    chain := { s.chain with state := .running, counter := n, lead := some 8
                            frame := { FrameProgress.none with started := true, control := m.map fun x => ⟨x, 0⟩ } }
    members := { s.members with missLimit := some 4 } }

/-- The bytes of the answer in the buffer. -/
def answer (s : State) : List Byte :=
  match s.hostPort.slot with
  | .answered _ a => a
  | _ => []

/-- A standing lease of the host with an active configuration. -/
def lease (n : Stream) (source : Position) (d : Direction) (c : Configuration) : Lease :=
  { stream := n, owner := 0, source, direction := d, listenOpen := false, shapeOpen := false, term := 0
    expiry := none, active := c, sealed := none, staged := none, mark := none, base := none, heard := false
    parityFaults := 0 }

/-- Three members are JOINED. -/
def three : State := stands (stands (stands State.reset 1 .joined) 2 .joined) 3 .joined

/-- Leases A, B and C of "Worked placement on a three-member chain", active. -/
def leaseA : Lease := lease 10 0 .down ⟨.w24, 2, 4, some 0⟩
def leaseB : Lease := lease 11 1 .down ⟨.w16, 4, 8, some 52⟩
def leaseC : Lease := lease 12 2 .down ⟨.w32, 1, 8, some 0⟩
def placed : State := holds (holds (holds (framed three 1000 none) 0 leaseA) 1 leaseB) 2 leaseC

/-! ## Check bytes, formats and the host port -/

/-- R185: 01h gives 07h, and three zero bytes give 00h. -/
theorem test_crc8_examples : crc8 [0x01] = 0x07 ∧ crc8 [0, 0, 0] = 0 := by decide +kernel

/-- "A NOTICE on the wire": bits 0 to 25 and 34 to 55 as the manual writes them, for stream 13. -/
theorem test_notice_onTheWire :
    fieldAt (noticeWord 5 1 ⟨3, 0⟩ 13 .source .down .w8 1 (some 176)) 0 56
      = 0b01100010000010100000110000000011010100000000101100000000 := by decide +kernel

/-- R192: DCh, and 00h right after reset. -/
theorem test_statusByte_examples :
    State.reset.statusByte = 0
      ∧ ({ framed State.reset 5 none with hostPort := ⟨.answered ⟨9, 41, []⟩ [], true, true, .high, []⟩ } : State).statusByte
        = 0xDC := by decide +kernel

theorem test_requestWrite_accepts :
    (after (.requestWrite (withCrc [9, 41, 0, 0, 1]) 0) State.reset).hostPort.slot = .waiting ⟨9, 41, [0, 0, 1]⟩ := by decide +kernel

theorem test_requestWrite_badCheckByte :
    (after (.requestWrite [9, 41, 0, 0, 1, 0] 0) State.reset).hostPort = ⟨.empty, true, false, .high, [0]⟩ := by decide +kernel

/-- Step 3 of "Example: a run of transactions": the NONE frame while the request waits. -/
theorem test_answerRead_none :
    (after (.answerRead (.finish 32)) (asks State.reset 9 [])).hostPort.hsdo = [0x80, 0, 0, 0, 0] := by decide +kernel

/-- Steps 8 and 9: a read ended after the third byte leaves the answer, a whole one releases it. -/
theorem test_answerRead_whole :
    let s : State := { State.reset with hostPort := ⟨.answered ⟨9, 41, []⟩ [1, 41, 9, 0xA2], false, false, .high, []⟩ }
    (after (.answerRead (.finish 24)) s).hostPort.slot = s.hostPort.slot
      ∧ (after (.answerRead (.finish 32)) s).hostPort.slot = .empty := by decide +kernel

/-- Step 7: the byte shows both losses, and clears them. -/
theorem test_statusRead_clears :
    let s : State := { framed State.reset 5 none with hostPort := ⟨.answered ⟨9, 41, []⟩ [], true, true, .high, []⟩ }
    (after .statusRead s).hostPort = ⟨.answered ⟨9, 41, []⟩ [], false, false, .high, [0xDC, 0xDC]⟩ := by decide +kernel

theorem test_unknownSelector_checkError :
    (after (.unknownSelector 0) State.reset).hostPort.checkError = true := by decide +kernel

theorem test_selectPeriodStart_captures :
    (after .selectPeriodStart State.reset).hostPort = ⟨.empty, false, false, .low, [0]⟩ := by decide +kernel

theorem test_deviceReset_ignoresThePeriod :
    (after (.requestWrite (withCrc [20, 1]) 0) (after .resetEnd (after .deviceReset (after .selectPeriodStart State.reset)))).hostPort
      = ⟨.empty, false, false, .high, []⟩ := by decide +kernel

/-! ## Requests on leases -/

/-- 12.2, line 3: lease A takes index 0 and is staged at offset 0, and the seal frame is 617. -/
theorem test_create_stages :
    let s := after .create (asks (framed three 600 none) 1 [10, 0, 0, 4, 2, 0, 0, 0, 0, 4, 0])
    answer s = withCrc [2, 41, 1, 0, 0, 0, 0] ∧ s.publisher.stage = .batching 617
      ∧ s.channelMap 1 = some 0 ∧ s.channelMap 2 = none := by decide +kernel

/-- "Worked placement", line 2: B is staged at offset 52, past A's run. -/
theorem test_create_firstFit :
    answer (after .create (asks (holds (framed three 1000 none) 0 leaseA) 1 [11, 1, 0, 2, 4, 0, 0, 0, 0, 8, 255]))
      = withCrc [2, 41, 1, 1, 0, 0, 52] := by decide +kernel

/-- "The shrink instead of the move": offset 0 is kept. -/
theorem test_shape_shrinks :
    answer (after .shape (asks placed 2 [0, 0, 4, 1])) = withCrc [2, 41, 2, 0, 0, 0, 0] := by decide +kernel

/-- "Binding, growing and unbinding", line 2: channel 6 is K's, so the SHAPE is IN_USE. -/
theorem test_shape_channelInUse :
    let k : Lease := { lease 20 3 .up ⟨.w16, 2, 1, some 0⟩ with base := some 6 }
    answer (after .shape (asks (holds (holds (framed three 1000 none) 0 { leaseA with base := some 4 }) 6 k) 2 [0, 0, 4, 3]))
      = withCrc [6, 41, 2] := by decide +kernel

/-- "Worked placement", line 6: A moves to offset 124. -/
theorem test_addListener_moves :
    answer (after .addListener (asks placed 3 [0, 0, 3])) = withCrc [2, 41, 3, 0, 0, 0, 124] := by decide +kernel

theorem test_addListener_source_invalid :
    answer (after .addListener (asks placed 3 [1, 0, 1])) = withCrc [9, 41, 3] := by decide +kernel

/-- R34: the last listener gone, there is no offset: 511. -/
theorem test_dropListener_unplaces :
    answer (after .dropListener (asks placed 4 [0, 0, 2])) = withCrc [2, 41, 4, 0, 0, 1, 0xFF] := by decide +kernel

/-- R16: an unplaced lease is retired at once, its generation advanced. -/
theorem test_retire_atOnce :
    let s := after .retire (asks (holds State.reset 0 (lease 10 0 .down ⟨.w24, 2, 0, none⟩)) 5 [0, 0])
    s.leases[0] = ⟨1, none⟩ ∧ s.attention.leases[0] = none ∧ answer s = withCrc [1, 41, 5, 0, 0] := by decide +kernel

theorem test_retire_stages :
    let s := after .retire (asks placed 5 [1, 0])
    answer s = withCrc [2, 41, 5, 1, 0] ∧ s.publisher.stage = .batching 1017 := by decide +kernel

/-- 12.4, renewal first: term 4 in frame 5255 gives 5511. -/
theorem test_renew_keepsTheTerm :
    let c : Lease := { lease 12 3 .up ⟨.w16, 1, 1, some 0⟩ with owner := 3, term := 4, expiry := some 5255 }
    ((after .renew (asks (holds (framed three 5255 none) 2 c) 6 [2, 0, 0xFF, 0xFF])).lease? 2).map Lease.expiry
      = some (some 5511) := by decide +kernel

theorem test_setRights_replaces :
    ((after .setRights (asks placed 7 [1, 0, 2])).lease? 1).map (fun l => (l.listenOpen, l.shapeOpen)) = some (false, true) := by
  decide +kernel

/-- "Binding, growing and unbinding", line 3: the reservation moves to channels 8 and 9. -/
theorem test_bindLocal_moves :
    let s := after .bindLocal (asks (holds (framed three 1000 none) 0 { leaseA with base := some 4 }) 8 [0, 0, 8])
    (s.channelMap 4, s.channelMap 8, s.channelMap 9, s.channelMap 10) = (none, some 0, some 0, none) := by decide +kernel

/-- R191: byte 0 of a QUERY result, and the active shape word of A: 24 bits, two slots, offset 0. -/
theorem test_query_layout :
    let a := answer (after .query (asks placed 9 [0, 0, 0]))
    a.length = 28 ∧ a.getD 3 0 = 0x01 ∧ (a.drop 15).take 4 = [0x84, 0, 0, 4] := by decide +kernel

theorem test_resolve_byStream :
    answer (after .resolve (asks placed 10 [12])) = withCrc [1, 41, 10, 2, 0, 1, 2, 0, 0xA0, 0] := by decide +kernel

theorem test_resolve_notFound : answer (after .resolve (asks placed 10 [13])) = withCrc [7, 41, 10] := by decide +kernel

/-! ## Requests on the device -/

/-- 12.6: B goes to offset 0 and D to 36; STAGED with two leases moved. -/
theorem test_repack_moves :
    let b : Lease := lease 11 1 .down ⟨.w16, 2, 8, some 52⟩
    let d : Lease := lease 13 0 .down ⟨.w8, 1, 8, some 88⟩
    let s := after .repack (asks (holds (holds (framed three 7000 none) 1 b) 2 d) 11 [])
    answer s = withCrc [2, 41, 11, 2]
      ∧ (s.lease? 1).map Lease.sealed = some (some (.config ⟨.w16, 2, 8, some 0⟩))
      ∧ (s.lease? 2).map Lease.sealed = some (some (.config ⟨.w8, 1, 8, some 36⟩)) := by decide +kernel

theorem test_repack_stopped : answer (after .repack (asks State.reset 11 [])) = withCrc [13, 41, 11] := by decide +kernel

/-- R79: nothing is staged, so PUBLISH is DONE with 0. -/
theorem test_publish_nothing : answer (after .publish (asks placed 12 [])) = withCrc [1, 41, 12, 0] := by decide +kernel

theorem test_publish_seals :
    let s := after .publish (asks (holds (framed three 1000 none) 0
      { leaseA with active := ⟨.w24, 2, 0, none⟩, staged := some leaseA.active }) 12 [])
    answer s = withCrc [1, 41, 12, 1]
      ∧ s.publisher.stage = .notifying ⟨1, [⟨⟨0, 0⟩, .config leaseA.active⟩], [⟨0, 2, false⟩], some 2⟩ := by decide +kernel

theorem test_setPublishing_records :
    (after .setPublishing (asks State.reset 13 [1, 200])).publisher = ⟨.manual, 200, 0, .idle⟩ := by decide +kernel

theorem test_readMember_layout :
    answer (after .readMember (asks placed 14 [3])) = withCrc [1, 41, 14, 2, 1, 0, 100, 5, 1, 0x44, 0, 0, 0, 0, 0, 2] := by
  decide +kernel

theorem test_setExpected_records :
    (((after .setExpected (asks State.reset 15 [2, 1, 0, 100, 5])).member 2).expected) = some ⟨100, 5⟩ := by decide +kernel

theorem test_setAdmission_closed :
    (after .setAdmission (asks State.reset 16 [2])).members.admission = .closed := by decide +kernel

/-- 12.2, line 1: miss limit 4, switch lead 8. -/
theorem test_chainStart_records :
    let s := after .chainStart (asks State.reset 17 [0, 4, 8])
    s.chain = { ChainEngine.reset with state := .running, lead := some 8 } ∧ s.members.missLimit = some 4 := by decide +kernel

/-- R22: the standing lease of the head is kept unplaced, the member's goes FREE. -/
theorem test_chainStop_keepsTheHeads :
    let s := after .chainStop (asks placed 18 [])
    (s.lease? 0).map Lease.active = some ⟨.w24, 2, 0, none⟩ ∧ s.leases[1] = ⟨1, none⟩ ∧ s.chain.counter = 1000 := by
  decide +kernel

/-- R169: the device item before the member items. -/
theorem test_fetchAttention_order :
    let s := after .fetchAttention (asks ((State.reset.raiseMember 3 Reason.lost).raiseDevice Reason.setApplied) 19 [])
    answer s = withCrc [1, 41, 19, 1, 0, 0, 0, 1] ∧ s.attention.items = 1 := by decide +kernel

theorem test_readStatus_layout :
    answer (after .readStatus (asks placed 20 []))
      = withCrc [1, 41, 20, 1, 0, 0, 0, 3, 0xE8, 0, 0, 0, 16, 3, 0, 0] := by decide +kernel

theorem test_unknownCommand_invalid :
    answer (after .unknownCommand (asks State.reset 21 [])) = withCrc [9, 41, 21] := by decide +kernel

/-! ## Member requests -/

/-- 12.2, line 4: member 1's CREATE of lease B, its bits written out as R188 lays them out. -/
theorem test_memberCreate_bits :
    let s := after .memberCreate (queues (framed three 602 none) 1 0b0010000101100100111001111101000000000000)
    (s.member 1).answer = some ⟨1, .done, false, ⟨0, 0⟩, (511 : BitVec 9) ++ (0 : BitVec 13)⟩
      ∧ (s.lease? 0).map Lease.active = some ⟨.w16, 4, 0, none⟩
      ∧ (s.lease? 0).map (fun l => (l.stream, l.listenOpen, l.shapeOpen)) = some (11, true, false)
      ∧ (s.lease? 0).map (fun l => (l.term, l.expiry)) = some (500, some 32602) := by decide +kernel

/-- 12.5, line 1: member 1, as owner, takes B to two slots, and offset 52 is kept. -/
theorem test_memberShape_owner :
    ((after .memberShape (queues (holds placed 1 { leaseB with owner := 1 }) 1 (shapePayload ⟨1, 0⟩ .w16 2 0))).member 1).answer
      = some ⟨2, .staged, false, ⟨1, 0⟩, (52 : BitVec 9) ++ (0 : BitVec 13)⟩ := by decide +kernel

/-- "Worked placement", line 5: member 2 listens to B within its span. -/
theorem test_listen_inPlace :
    ((after .listen (queues (holds placed 1 { leaseB with listenOpen := true }) 2 (handlePayload 3 ⟨1, 0⟩ 0))).member 2).answer
      = some ⟨3, .staged, false, ⟨1, 0⟩, (52 : BitVec 9) ++ (0 : BitVec 13)⟩ := by decide +kernel

theorem test_listen_closed_denied :
    ((after .listen (queues placed 2 (handlePayload 3 ⟨1, 0⟩ 0))).member 2).answer
      = some ⟨3, .denied, false, ⟨1, 0⟩, 0⟩ := by decide +kernel

theorem test_quit_unplaces :
    ((after .quit (queues placed 3 (handlePayload 4 ⟨1, 0⟩ 0))).member 3).answer
      = some ⟨4, .staged, false, ⟨1, 0⟩, (511 : BitVec 9) ++ (0 : BitVec 13)⟩ := by decide +kernel

/-- R21, R167: a member's RETIRE at once raises MEMBER_ACTION and RETIRED with the handle it held. -/
theorem test_memberRetire_raises :
    let s := after .memberRetire (queues (holds three 4 { lease 9 1 .down ⟨.w8, 1, 0, none⟩ with owner := 1 }) 1 (handlePayload 5 ⟨4, 0⟩ 0))
    s.leases[4] = ⟨1, none⟩ ∧ s.attention.leases[4] = some ⟨0, 9⟩ := by decide +kernel

/-- R15, R104: a requested retirement cannot be withdrawn. -/
theorem test_memberRenew_gone :
    ((after .memberRenew (queues (holds placed 1 { leaseB with owner := 1, mark := some ⟨.requested 0, .staged⟩ }) 1
      (handlePayload 6 ⟨1, 0⟩ 0))).member 1).answer = some ⟨6, .gone, false, ⟨1, 0⟩, 0⟩ := by decide +kernel

theorem test_memberResolve_layout :
    ((after .memberResolve (queues placed 3 (streamPayload 11 0))).member 3).answer
      = some ⟨7, .done, false, ⟨1, 0⟩, 0b0100010010011000110100⟩ := by decide +kernel

theorem test_memberOpNone_invalid :
    ((after .memberOpNone (queues placed 3 0)).member 3).answer = some ⟨0, .invalid, false, ⟨0, 0⟩, 0⟩ := by decide +kernel

/-! ## The frame -/

/-- R138: the counter wraps. -/
theorem test_frameStart_wraps :
    let s := after .frameStart (framed State.reset 0xFFFFFFFF (some .idle))
    s.chain.counter = 0 ∧ s.localPort.lfs = true := by decide +kernel

/-- "A member lease running out": lease P, before its expiry. -/
def leaseP : Lease :=
  { lease 30 3 .up ⟨.w8, 1, 1, some 0⟩ with owner := 3, term := 2, expiry := some 5128 }

/-- Line 3: the mark is staged and the seal frame is 5145. -/
theorem test_expiry_stages :
    let s := after (.expiry 9) (holds (framed three 5128 none) 9 leaseP)
    (s.lease? 9).map Lease.mark = some (some ⟨.expired, .staged⟩) ∧ s.publisher.stage = .batching 5145
      ∧ s.attention.leases[9] = some ⟨0, Reason.expired⟩ := by decide +kernel

/-- An UP region that carries the bits from one of its bits on, and zeros elsewhere. -/
def upRegion (first : Nat) (bits : BitVec 34) : BitVec 440 := (bits.zeroExtend 440 <<< 406) >>> first

/-- Line 4: a filled slot with good parity in frame 5131 withdraws it: expiry frame 5259. -/
theorem test_upSlotRead_withdraws :
    let s := after (.upSlotRead 9 0 (upRegion 0 0b1000000010000000000000000000000000))
      (holds (framed three 5131 (some .idle)) 9 { leaseP with mark := some ⟨.expired, .staged⟩ })
    (s.lease? 9).map (fun l => (l.mark, l.expiry, l.heard)) = some (none, some 5259, true) := by decide +kernel

/-- "Binding, growing and unbinding", line 1: ABCDh arrives as ABCD0000h (ten ones and the fill: parity 1). It lies in slot 1
at offset 124, bits 142 to 159 (R24), and a lease at offset 0 reads zeros from the same region (R151). -/
theorem test_upSlotRead_gathers :
    let k : Nat → Lease := fun o => { lease 20 3 .up ⟨.w16, 2, 1, some o⟩ with base := some 6 }
    let t : Nat → State := fun o => after (.upSlotRead 6 1 (upRegion 142 0b1010101111001101110000000000000000))
      (holds (framed three 1000 (some .idle)) 6 (k o))
    (t 124).localPort.gathering[7] = 0xABCD0000 ∧ (t 0).localPort.gathering[7] = 0
      ∧ ((t 124).lease? 6).map Lease.heard = some true ∧ ((t 0).lease? 6).map Lease.heard = some false := by decide +kernel

/-- Line 5: the window ends with nothing staged. -/
theorem test_batchWindowEnd_idle :
    let s := framed three 5145 none
    (after .batchWindowEnd { s with publisher := { s.publisher with stage := .batching 5145 } }).publisher.stage = .idle := by
  decide +kernel

/-- 12.2, line 8: at the switch frame A becomes active, the epoch 1, and SET_APPLIED is raised. -/
theorem test_setApplication_switches :
    let a : Lease := { leaseA with active := ⟨.w24, 2, 0, none⟩, sealed := some (.config leaseA.active) }
    let s := holds (framed three 629 none) 0 a
    let set : ChangeSet := ⟨1, [⟨⟨0, 0⟩, .config leaseA.active⟩], [⟨0, 2, true⟩], some 3⟩
    let t := after .setApplication { s with publisher := { s.publisher with stage := .switching set 629 } }
    (t.lease? 0).map Lease.active = some leaseA.active ∧ t.publisher = ⟨.auto, 16, 1, .idle⟩ ∧ t.attention.device = 1 := by
  decide +kernel

/-- R73, R95: the SHAPE of a lease of the set with nothing placed and the application give one outcome in either order. -/
theorem test_setApplication_keepsTheShape :
    let l : Lease := { lease 10 0 .down ⟨.w24, 2, 0, none⟩ with sealed := some (.config ⟨.w16, 2, 0, none⟩) }
    let set : ChangeSet := ⟨1, [⟨⟨0, 0⟩, .config ⟨.w16, 2, 0, none⟩⟩], [], none⟩
    let s := asks ((holds (framed three 629 none) 0 l).setStage (.switching set 629)) 2 (shapeParams ⟨0, 0⟩ .w8 5)
    let t := after .setApplication (after .shape s)
    (t.lease? 0).map (fun m => (m.active, m.staged)) = some (⟨.w8, 5, 0, none⟩, none)
      ∧ answer t = withCrc [1, 41, 2, 0, 0, 1, 0xFF] ∧ t = after .shape (after .setApplication s) := by decide +kernel

/-- 12.2, line 1: frame 0 carries OPEN_CALL with target 1; frame 256 the one with target 2. -/
theorem test_choice_openCall :
    ((after .controlMessageChoice (framed State.reset 0 none)).chain.frame.control.map Control.message) = some (.openCall 1)
      ∧ (let s := framed (stands State.reset 1 .joined) 256 none
         (after .controlMessageChoice { s with members := { s.members with lastOpenCall := some 0 } }).chain.frame.control.map
          Control.message) = some (.openCall 2)
      ∧ (let s := framed (stands State.reset 1 .joined) 255 none
         (after .controlMessageChoice { s with members := { s.members with lastOpenCall := some 0 } }).chain.frame.control.map
          Control.message) = some (.addressed .poll 1) := by decide +kernel

/-- The JOIN of frame 0 makes position 1 ADMITTING. -/
theorem test_responseWord_joins :
    let s := after (.responseWord (responseWordOf false false true 1 77 (identityPayload ⟨100, 5, 1, 4, 4⟩)))
      (framed State.reset 0 (some (.openCall 1)))
    (s.member 1).state = .admitting ∧ s.chain.delivery = [.assign 1] := by decide +kernel

/-- R122: a silent hop is a miss. -/
theorem test_responseWord_missing :
    ((after (.responseWord 0) (framed three 9 (some (.addressed .poll 2)))).member 2).misses = 1 := by decide +kernel

/-- R136, R146: the UP region follows the response part, so a response word that has not come by then was missing. -/
theorem test_upSlotRead_closesResponse :
    let s := after (.upSlotRead 0 0 0) (framed three 9 (some (.addressed .poll 2)))
    (s.member 2).misses = 1 ∧ ((after (.responseWord (responseWordOf false false false 2 0 0)) s).member 2).misses = 1 := by
  decide +kernel

/-- "Binding, growing and unbinding", line 1: channel 4 holds 12345678h, and slot 0 of A carries 123456h with fill 1 and parity 0. -/
theorem test_downRegionDrive_slot :
    let s := holds (framed three 1000 (some .idle)) 0 { leaseA with base := some 4 }
    let t := { s with localPort := { s.localPort with input := s.localPort.input.set 4 ⟨0x12345678, true⟩ } }
    ((after .downRegionDrive t).chain.frame.downRegion.map fun r => fieldAt r 0 52)
      = some ((0x123456 : BitVec 24) ++ (2 : BitVec 2) ++ (0 : BitVec 26)) := by decide +kernel

/-- 12.5, line 4: the fourth miss of member 3 loses it; A is staged without it, at its offset. -/
theorem test_memberLoss_cleans :
    let a : Lease := lease 10 0 .down ⟨.w24, 2, 12, some 0⟩
    let s := holds (framed three 6023 (some (.addressed .poll 3))) 0 a
    let t := after (.memberLoss 3) (s.setMember 3 { s.member 3 with misses := 3 })
    (t.member 3).state = .lost ∧ (t.lease? 0).map Lease.staged = some (some ⟨.w24, 2, 4, some 0⟩)
      ∧ t.attention.members[2] = Reason.lost := by decide +kernel

theorem test_memberLoss_notDue :
    ((after (.memberLoss 3) (framed three 6023 (some (.addressed .poll 3)))).member 3).state = .joined := by decide +kernel

theorem test_admissionFailure_empties :
    let s := framed (stands State.reset 1 .admitting) 9 (some (.addressed .assign 1))
    let t := after (.admissionFailure 1) (s.setMember 1 { s.member 1 with misses := 3 })
    (t.member 1).state = .vacant ∧ (t.member 1).identity = none ∧ t.attention.members[0] = Reason.admitFailed := by
  decide +kernel

/-- R154: period 0 carries the most significant bit of channel 0 and takes one of LSDI. -/
theorem test_lbckPeriod_first :
    let s := framed State.reset 9 (some .idle)
    let p := (after (.lbckPeriod true)
      { s with localPort := { s.localPort with sending := s.localPort.sending.set 0 0x80000000 } }).localPort
    p.lsdo = true ∧ p.capture[0] = 1 ∧ p.periods = 1 := by decide +kernel

theorem test_lbckPeriod_uncounted :
    let s := framed State.reset 9 (some .idle)
    let p := (after (.lbckPeriod true) { s with localPort := { s.localPort with periods := 1024, lsdo := true } }).localPort
    p.lsdo = false ∧ p.periods = 1024 := by decide +kernel

/-- The device idles on an empty queue (log entry 1). -/
theorem test_step_idles : step State.reset = .next State.reset := rfl

/-! ## States that meet the hypotheses of the statements -/

theorem asks_waits (s : State) (code : Byte) (ps : List Byte) (h : s.engine.queue = []) :
    (asks s code ps).HostAsks code 41 ps := ⟨rfl, Or.inl h⟩

theorem queues_waits (s : State) (p : Position) (payload : BitVec 40) :
    (queues s p payload).MemberAsks ⟨p, payload, false⟩ [] := ⟨rfl, Or.inr rfl⟩

/-- One lease in the table. -/
def alone (l : Lease) : State := holds State.reset 0 l

theorem reset_lease? (i : LeaseIndex) : State.reset.lease? i = none := by
  simp [State.lease?, State.reset]

theorem holds_lease? (s : State) (i j : LeaseIndex) (l : Lease) :
    (holds s i l).lease? j = if j = i then some l else s.lease? j := by
  have h : i.val = j.val ↔ j = i := by rw [eq_comm, Fin.ext_iff]
  by_cases e : j = i
  · simp [State.lease?, holds, e]
  · have : ¬i.val = j.val := fun x => e (h.mp x)
    simp [State.lease?, holds, e, this]

theorem alone_lease? (l : Lease) (j : LeaseIndex) : (alone l).lease? j = if j = 0 then some l else none := by
  rw [alone, holds_lease?, reset_lease?]

/-- A lease alone in the table fits wherever its run lies within the region. -/
theorem alone_fits (l : Lease) (d : Direction) (p : Position) (c : Configuration) (o : Nat) (h : o + c.cost ≤ 440) :
    (alone l).FitsAt 0 d p c o := by
  refine ⟨h, fun j m hj hm => ?_⟩
  rw [alone_lease?, if_neg hj] at hm
  exact absurd hm (by simp)

/-- Two leases that leave 32 bits of the DOWN region of hop 0, beside the one in entry 0. -/
def crowd (l : Lease) : State :=
  holds (holds (alone l) 1 (lease 1 0 .down ⟨.w32, 8, 2, some 0⟩)) 2 (lease 2 0 .down ⟨.w32, 4, 2, some 272⟩)

theorem crowd_full (l : Lease) (i : LeaseIndex) (hi : i = 0 ∨ i = 3) (o : Nat) :
    ¬(crowd l).FitsAt i .down 0 ⟨.w32, 1, 2, none⟩ o := by
  rintro ⟨h1, h2⟩
  have hc : (⟨.w32, 1, 2, none⟩ : Configuration).cost = 34 := rfl
  have n1 : (1 : LeaseIndex) ≠ i := by rcases hi with rfl | rfl <;> decide
  have n2 : (2 : LeaseIndex) ≠ i := by rcases hi with rfl | rfl <;> decide
  have e1 : (crowd l).lease? 1 = some (lease 1 0 .down ⟨.w32, 8, 2, some 0⟩) := by
    simp [crowd, holds_lease?]
  have e2 : (crowd l).lease? 2 = some (lease 2 0 .down ⟨.w32, 4, 2, some 272⟩) := by
    simp [crowd, holds_lease?]
  have a1 := h2 1 _ n1 e1 rfl ⟨0, 1, 0, 272⟩ (by decide) 0 o
  have a2 := h2 2 _ n2 e2 rfl ⟨0, 1, 272, 136⟩ (by decide) 0 o
  have r : (⟨.w32, 1, 2, none⟩ : Configuration).runAt .down 0 o = ⟨0, 1, o, 34⟩ := by
    simp only [Configuration.runAt, hc]
    exact congrArg₂ (fun a b => Run.mk a b o 34) (by decide) (by decide)
  rw [r] at a1 a2
  simp only [Run.Covers] at a1 a2
  omega

/-- A lawful device: member 1 JOINED, one bound DOWN lease from the head to it, a frame in progress. -/
def leaseS : Lease := { lease 10 0 .down ⟨.w16, 1, 2, some 0⟩ with base := some 4 }
def sample : State := { holds (framed (stands State.reset 1 .joined) 9 (some .idle)) 0 leaseS with pending := [.frameStart] }

theorem sample_lease? (i : LeaseIndex) (l : Lease) : sample.lease? i = some l ↔ i = 0 ∧ l = leaseS := by
  have h : sample.lease? i = if i = 0 then some leaseS else none := by
    have := holds_lease? (framed (stands State.reset 1 .joined) 9 (some .idle)) 0 i leaseS
    have e : (framed (stands State.reset 1 .joined) 9 (some .idle)).lease? i = none := by
      simp [State.lease?, framed, stands, State.setMember, State.reset]
    rw [e] at this
    exact this
  rw [h]
  by_cases e : i = 0 <;> simp [e, eq_comm]

theorem sample_lawful : sample.Lawful := by
  have hl := fun i l => (sample_lease? i l).mp
  have hm : ∀ p : Position, (sample.member p).state = if p = 1 then .joined else .vacant := by decide +kernel
  have hst : sample.publisher.stage = .idle := rfl
  have hset : ∀ set, sample.publisher.stage.set? ≠ some set := by rw [hst]; intro set h; cases h
  refine ⟨fun _ h => (by cases h), ⟨?_, ?_⟩, ⟨?_, ?_, ?_⟩, ⟨?_, ?_⟩, ⟨?_, ?_, ?_, ?_⟩, ⟨?_, ?_, ?_, ?_, ?_, ?_⟩, ⟨?_, ?_, ?_, ?_⟩,
    ⟨?_, ?_, ?_, ?_, ?_, ?_, ?_, ?_, ?_⟩, ?_, ⟨?_, ?_⟩⟩
  · intro i l h
    obtain ⟨-, rfl⟩ := hl i l h
    refine ⟨by decide, ?_, by decide, by decide, by decide, by decide, by decide⟩
    intro c hc
    have : c = ⟨.w16, 1, 2, some 0⟩ := by simpa [Lease.configurations, Lease.sealedConfig, leaseS, lease] using hc
    subst this
    refine ⟨by decide, by decide, by decide, ?_⟩
    intro o ho
    cases ho
    decide
  · intro i j l m h1 h2 _
    exact (hl i l h1).1.trans (hl j m h2).1.symm
  · intro i j l m hne h1 h2
    exact absurd ((hl i l h1).1.trans (hl j m h2).1.symm) hne
  · intro i j l m hne h1 h2
    exact absurd ((hl i l h1).1.trans (hl j m h2).1.symm) hne
  · intro i l h hs
    obtain ⟨-, rfl⟩ := hl i l h
    exact absurd rfl hs
  · intro i l c h hr
    obtain ⟨-, rfl⟩ := hl i l h
    obtain ⟨b, hb, h1, h2⟩ := hr
    cases hb
    have : leaseS.largestCount = 1 := by decide
    have : ((4 : Channel) : Nat) = 4 := rfl
    omega
  · intro i j l m c h1 h2 _ _
    exact (hl i l h1).1.trans (hl j m h2).1.symm
  · intro p h0 h15
    rw [hm, hm]
    by_cases h : p = 1
    · rw [if_pos h]; trivial
    · have : p + 1 ≠ 1 := fun e => h0 (by revert p; decide)
      rw [if_neg h, if_neg this]
      rfl
  · intro t h; cases h
  · intro p h; cases h
  · intro p h; cases h
  · intro e h; cases h
  · exact List.nodup_nil
  · intro p h
    exact absurd ((by decide +kernel : ∀ p, (sample.member p).answer = none) p) h
  · intro p
    exact ⟨fun h => (by cases h), fun h => absurd ((by decide +kernel : ∀ p, (sample.member p).answer = none) p) h⟩
  · intro p
    refine ⟨fun h => (by cases h), fun h => ?_⟩
    rw [hm] at h
    split at h <;> cases h
  · exact List.nodup_nil
  · intro i l h
    obtain ⟨-, rfl⟩ := hl i l h
    exact Or.inl rfl
  · intro i l p h hp
    obtain ⟨-, rfl⟩ := hl i l h
    have : p = 1 := by revert p; decide
    subst this
    exact Or.inr (Or.inl (by rw [hm]; rfl))
  · intro p h0 hp
    have h1 : p = 1 := by
      rcases hp with h | h | h
      · exact absurd h h0
      · rw [hm] at h; split at h <;> simp_all
      · rw [hm] at h; split at h <;> simp_all
    subst h1
    decide +kernel
  · intro p h0 hp
    have h1 : p = 1 := by
      rcases hp with h | h | h
      · exact absurd h h0
      · rw [hm] at h; split at h <;> simp_all
      · rw [hm] at h; split at h <;> simp_all
    subst h1
    decide +kernel
  · intro h; exact absurd hst h
  · intro f h; rw [hst] at h; cases h
  · intro set h; exact absurd h (hset set)
  · intro set h; exact absurd h (hset set)
  · intro set h; exact absurd h (hset set)
  · intro set h; exact absurd h (hset set)
  · intro set h; exact absurd h (hset set)
  · intro set h; rw [hst] at h; cases h
  · intro set f h; rw [hst] at h; cases h
  · intro h; cases h
  · intro i it h
    have : sample.attention.leases[i] = none := by simp [sample, holds, framed, stands, State.setMember, State.reset, AttentionSet.empty]
    rw [this] at h
    cases h
  · decide

/-! ### Reset and the host port -/

theorem witness_EveryCommandCompletes : exec .frameStart sample = .next (after .frameStart sample) := rfl

theorem witness_DeviceResetTakesEveryBlock :
    (after .deviceReset sample).inReset = true
      ∧ (after .resetEnd (after .deviceReset (after .selectPeriodStart sample))).hostPort.select = .ignored
      ∧ (0x1C : Byte) ≠ 0x1D ∧ (0x1C : Byte) ≠ 0x2E ∧ (0x1C : Byte) ≠ 0x3B := by decide +kernel

/-- R182: an answer read that begins in the reset is ignored to its end, also when the reset ends within it. -/
theorem test_answerRead_acrossReset :
    let s := after .resetEnd (after (.answerRead .selector) (after .deviceReset State.reset))
    s.inReset = false ∧ s.hostPort.select = .ignored
      ∧ (after (.answerRead (.finish 32)) s).hostPort.hsdo = []
      ∧ (after (.answerRead (.finish 32)) s).hostPort.select = .high := by decide +kernel

/-- Frames of 3 and of 15 bytes, an empty and an occupied slot, and each kind of damage at its edge. -/
theorem witness_RequestWriteIsAcceptedOrRefused :
    State.reset.inReset = false ∧ State.reset.hostPort.select ≠ .ignored ∧ State.reset.hostPort.slot = .empty
      ∧ (asks State.reset 9 []).hostPort.slot ≠ .empty
      ∧ ([] : List Byte).length ≤ 12 ∧ (List.replicate 12 (0 : Byte)).length ≤ 12
      ∧ (withCrc [9, 41]).length = 3 ∧ (withCrc (9 :: 41 :: List.replicate 12 0)).length = 15
      ∧ (1 : Fin 8) ≠ 0 ∧ ([0, 0] : List Byte).length < 3 ∧ 15 < (List.replicate 16 (0 : Byte)).length
      ∧ ([9, 41, 0] : List Byte).getLast? ≠ some (crc8 ([9, 41, 0] : List Byte).dropLast) := by decide +kernel

theorem witness_AnswerReadReleasesAWholeAnswer :
    let done : State := { State.reset with hostPort := ⟨.answered ⟨9, 41, []⟩ [1, 41, 9, 0], false, false, .high, []⟩ }
    done.inReset = false ∧ done.hostPort.select = .high
      ∧ done.hostPort.slot = .answered ⟨9, 41, []⟩ [1, 41, 9, 0] ∧ (∀ r a, State.reset.hostPort.slot ≠ .answered r a)
      ∧ (after (.answerRead .selector) done).hostPort.select = .answering [1, 41, 9, 0] true
      ∧ (after (.answerRead .selector) State.reset).hostPort.select = .answering [0, 0, 0, 0] false
      ∧ (after .selectPeriodStart done).hostPort.select = .low
      ∧ exec (.answerRead .selector) done = .next (after (.answerRead .selector) done) :=
  ⟨rfl, rfl, rfl, (fun _ _ h => by cases h), rfl, rfl, rfl, rfl⟩

theorem witness_StatusReadClearsTheStickyFlags :
    State.reset.inReset = false ∧ State.reset.hostPort.select ≠ .ignored
      ∧ (0 : Byte) ≠ 0x1D ∧ (0 : Byte) ≠ 0x2E ∧ (0 : Byte) ≠ 0x3B := by decide

theorem witness_StatusByteLayout :
    let s : State := { framed State.reset 5 none with hostPort := ⟨.answered ⟨9, 41, []⟩ [], true, true, .high, []⟩ }
    s.hostPort.slot = .answered ⟨9, 41, []⟩ [] ∧ s.hostPort.checkError = true ∧ s.hostPort.slotFull = true
      ∧ s.chain.state = .running ∧ ¬s.attention.HoldsAnItem ∧ s.inReset = false ∧ s.hostPort.select = .high
      ∧ exec .statusRead s = .next (after .statusRead s) ∧ exec .chainStop s = .next (after .chainStop s)
      ∧ exec .selectPeriodStart State.reset = .next (after .selectPeriodStart State.reset) := by
  refine ⟨rfl, rfl, rfl, rfl, ?_, rfl, rfl, rfl, rfl, rfl⟩
  rintro (h | ⟨k, h⟩ | ⟨i, h⟩)
  · exact h rfl
  · exact h (by simp [framed, State.reset, AttentionSet.empty])
  · exact h (by simp [framed, State.reset, AttentionSet.empty])

/-- A write into the empty slot with both flags set; and an answer read of the buffer in progress, which ends. -/
theorem witness_SlotAndStickyFlagsRound :
    let s : State := { State.reset with hostPort := ⟨.empty, true, true, .high, []⟩ }
    let u : State := { State.reset with
      hostPort := ⟨.answered ⟨9, 41, []⟩ [1, 41, 9, 0], false, false, .answering [1, 41, 9, 0] true, []⟩
      pending := [.answerRead (.finish 32)] }
    s.PortLawful ∧ exec (.requestWrite (withCrc [20, 41]) 0) s = .next (after (.requestWrite (withCrc [20, 41]) 0) s)
      ∧ Instr.requestWrite (withCrc [20, 41]) 0 ≠ .deviceReset ∧ Instr.requestWrite (withCrc [20, 41]) 0 ≠ .statusRead
      ∧ s.hostPort.checkError = true ∧ s.hostPort.slotFull = true
      ∧ u.PortLawful ∧ u.hostPort.select = .answering [1, 41, 9, 0] true
      ∧ step u = .next (after (.answerRead (.finish 32)) { u with pending := [] })
      ∧ (after (.answerRead (.finish 32)) u).hostPort.slot = .empty :=
  ⟨(fun _ h => by cases h), rfl, (fun h => by cases h), (fun h => by cases h), rfl, rfl, (fun _ h => by cases h; exact ⟨_, rfl⟩),
    rfl, rfl, rfl⟩

/-! ### Taking requests -/

/-- A form that HostFormed admits is of the command code. -/
theorem formed_length {ps : List Byte} (h : HostFormed 20 ps) : ps = [] := by
  rcases h with ⟨h, -⟩ | ⟨_, h⟩ | ⟨h, -⟩ | ⟨-, h⟩ | ⟨h, -⟩ | ⟨h, -⟩ | ⟨h, -⟩ | ⟨h, -⟩ | ⟨h, -⟩
  · exact absurd h (by decide)
  · rcases h with ⟨h, -⟩ | ⟨h, -⟩ | ⟨h, -⟩ | ⟨h, -⟩ | ⟨h, -⟩ | ⟨h, -⟩ | ⟨h, -⟩ <;> exact absurd h (by decide)
  · exact absurd h (by decide)
  · exact h
  all_goals exact absurd h (by decide)

/-- The first and the last command code, the two that name no request, a parameter too many, the host's turn over a
waiting member, and no request at all. -/
theorem witness_HostRequestsAreAnsweredOnce :
    (asks State.reset 0 []).HostAsks 0 41 [] ∧ (asks State.reset 1 []).HostAsks 1 41 []
      ∧ (asks State.reset 20 []).HostAsks 20 41 [] ∧ (asks State.reset 21 []).HostAsks 21 41 []
      ∧ (asks State.reset 20 [0]).HostAsks 20 41 [0] ∧ ¬HostFormed 20 [0] ∧ HostFormed 20 []
      ∧ ({ asks (queues three 2 0) 20 [] with engine := ⟨[⟨2, 0, false⟩], .host⟩ } : State).HostAsks 20 41 []
      ∧ hostCommand 19 ≠ hostCommand 20 ∧ (∀ code tag ps, ¬State.reset.HostAsks code tag ps)
      ∧ ∀ code tag ps, ¬(asks (queues three 2 0) 20 []).HostAsks code tag ps := by
  refine ⟨asks_waits _ _ _ rfl, asks_waits _ _ _ rfl, asks_waits _ _ _ rfl, asks_waits _ _ _ rfl, asks_waits _ _ _ rfl,
    (fun h => by cases formed_length h), Or.inr (Or.inr (Or.inr (Or.inl ⟨by decide, rfl⟩))), ⟨rfl, Or.inr rfl⟩, (by decide), ?_, ?_⟩
  · rintro code tag ps ⟨h, -⟩
    cases h
  · rintro code tag ps ⟨-, h | h⟩
    · cases h
    · cases h

/-- A RESOLVE of stream 0 is of no form. -/
theorem streamZero_unformed : ¬MemberFormed 7 (streamPayload 0 0) := by
  have top : ∀ n u, (streamPayload n u).extractLsb' 29 8 = n := by
    intro n u
    unfold streamPayload
    ext k hk
    rw [BitVec.getElem_extractLsb', BitVec.getLsbD_append, BitVec.getLsbD_append, if_neg (by omega), if_pos (by omega)]
    simp [BitVec.getLsbD_eq_getElem hk]
  rintro (⟨h, -⟩ | ⟨_, h⟩ | ⟨-, n, u, hn, h⟩)
  · exact absurd h (by decide)
  · rcases h with ⟨h, -⟩ | ⟨h, -⟩
    · exact absurd h (by decide)
    · revert h; decide
  · exact hn ((top n u).symm.trans ((congrArg (BitVec.extractLsb' 29 8) h).symm.trans (top 0 0)))

/-- Every operation at the head of the queue, with a position of 1 and of 15, also while the host waits for its
turn; one of no form; and no request. -/
theorem witness_MemberRequestsAreAnsweredOnce :
    (queues three 1 0).MemberAsks ⟨1, 0, false⟩ [] ∧ (⟨1, 0, false⟩ : QueueEntry).operation = 0
      ∧ (queues three 15 (streamPayload 11 0)).MemberAsks ⟨15, streamPayload 11 0, false⟩ []
      ∧ (⟨15, streamPayload 11 0, false⟩ : QueueEntry).operation = 7
      ∧ (queues three 1 (streamPayload 0 0)).MemberAsks ⟨1, streamPayload 0 0, false⟩ [] ∧ ¬MemberFormed 7 (streamPayload 0 0)
      ∧ (asks (queues three 1 0) 20 []).MemberAsks ⟨1, 0, false⟩ [] ∧ ∀ e rest, ¬three.MemberAsks e rest := by
  refine ⟨queues_waits _ _ _, (by decide), queues_waits _ _ _, (by decide), queues_waits _ _ _, streamZero_unformed,
    ⟨rfl, Or.inr rfl⟩, ?_⟩
  rintro e rest ⟨h, -⟩
  cases h

theorem mark_names (l : Lease) (st : LeaseState) (h : l.state = st) : (alone l).Names ⟨0, 0⟩ l st := by
  refine ⟨?_, h⟩
  simp [alone, holds]

/-- A lease in each state: LIVE, RETIRING by each cause, and GOING. -/
def retiring (c : Cause) : Lease := { leaseA with mark := some ⟨c, .staged⟩ }
def going : Lease := { leaseA with sealed := some .retirement, mark := some ⟨.requested 0, .sealed⟩ }

/-- A FREE entry, the last index, another generation, and a lease in each state. -/
theorem witness_TargetAndLeaseStateSteps :
    (asks State.reset 5 (Handle.mk 127 15).bytes).HostAsks 5 41 (Handle.mk 127 15).bytes
      ∧ HostNames ⟨127, 15⟩ 5 (Handle.mk 127 15).bytes
      ∧ (∀ l, (asks State.reset 5 (Handle.mk 127 15).bytes).leases[(127 : LeaseIndex)] ≠ ⟨15, some l⟩)
      ∧ (∀ l, (alone leaseA).leases[(0 : LeaseIndex)] ≠ ⟨1, some l⟩)
      ∧ (alone going).Names ⟨0, 0⟩ going .going ∧ (alone (retiring .expired)).Names ⟨0, 0⟩ (retiring .expired) .retiring
      ∧ (5 : Byte) ≠ 9 ∧ (7 : Byte) ≠ 5 ∧ (7 : Byte) ≠ 6 ∧ (7 : Byte) ≠ 9
      ∧ HostNames ⟨0, 0⟩ 7 ((Handle.mk 0 0).bytes ++ [rightsByte true false])
      ∧ MemberNames ⟨0, 0⟩ 3 (handlePayload 3 ⟨0, 0⟩ 0) ∧ MemberNames ⟨0, 0⟩ 2 (shapePayload ⟨0, 0⟩ .w8 8 0)
      ∧ (queues (alone going) 2 (handlePayload 3 ⟨0, 0⟩ 0)).MemberAsks ⟨2, handlePayload 3 ⟨0, 0⟩ 0, false⟩ [] := by
  refine ⟨asks_waits _ _ _ rfl, Or.inr (Or.inr (Or.inl ⟨rfl, rfl⟩)), ?_, ?_, mark_names _ _ (by decide),
    mark_names _ _ (by decide), by decide, by decide, by decide, by decide,
    Or.inr (Or.inr (Or.inr (Or.inr (Or.inl ⟨rfl, _, _, rfl⟩)))), Or.inr ⟨Or.inl rfl, _, rfl⟩,
    Or.inl ⟨rfl, _, _, _, by decide, by decide, rfl⟩, queues_waits _ _ _⟩
  · intro l h
    simp [asks, State.reset] at h
  · intro l h
    simp [alone, holds] at h

theorem witness_RightsStepForMembers :
    (queues (alone leaseA) 2 (handlePayload 5 ⟨0, 0⟩ 0)).MemberAsks ⟨2, handlePayload 5 ⟨0, 0⟩ 0, false⟩ []
      ∧ MemberNames ⟨0, 0⟩ 5 (handlePayload 5 ⟨0, 0⟩ 0) ∧ (alone leaseA).Names ⟨0, 0⟩ leaseA .live
      ∧ (alone (retiring .expired)).Names ⟨0, 0⟩ (retiring .expired) .retiring
      ∧ (2 : Position) ≠ 0 ∧ leaseA.owner ≠ 2 ∧ leaseA.source ≠ 2 ∧ leaseA.shapeOpen = false ∧ leaseA.listenOpen = false
      ∧ hasListener leaseA.latest.listeners 3 = false :=
  ⟨queues_waits _ _ _, Or.inr ⟨Or.inr (Or.inr (Or.inl rfl)), _, rfl⟩, mark_names _ _ (by decide),
    mark_names _ _ (by decide), by decide, by decide, by decide, rfl, rfl, by decide⟩

/-! ### CREATE -/

/-- What a CREATE for stream 255 asks for: eight slots, no listener, channels 24 to 31. -/
def asked : CreateFields := ⟨255, 0, .down, .w8, 8, false, false, 0, 0, some 24⟩

theorem witness_CreateMakesALease :
    (asks State.reset 1 (createParams asked)).HostAsks 1 41 (createParams asked)
      ∧ (asks State.reset 1 (createParams asked)).CreateAllowed 0 asked
      ∧ (asks State.reset 1 (createParams asked)).LowestFree 0
      ∧ (∀ i, ({ State.reset with leases := Vector.replicate 128 ⟨0, some leaseA⟩ } : State).lease? i ≠ none)
      ∧ (alone leaseB).PlacedAt 0 .down 0 ⟨.w32, 1, 2, none⟩ none 0
      ∧ (∀ o, ¬(crowd leaseB).FitsAt 3 .down 0 ⟨.w32, 1, 2, none⟩ o)
      ∧ (queues (stands State.reset 1 .joined) 1 (createPayload ⟨255, 1, .up, .w8, 1, true, true, 1023, 0, none⟩ 0)).MemberAsks
          ⟨1, createPayload ⟨255, 1, .up, .w8, 1, true, true, 1023, 0, none⟩ 0, false⟩ []
      ∧ (queues (stands State.reset 1 .joined) 1 (createPayload ⟨255, 1, .up, .w8, 1, true, true, 1023, 0, none⟩ 0)).CreateAllowed 1
          ⟨255, 1, .up, .w8, 1, true, true, 1023, 0, none⟩ := by
  have none_of : ∀ i, (asks State.reset 1 (createParams asked)).lease? i = none := by
    intro i
    simp [State.lease?, asks, State.reset]
  have none_of' : ∀ i, (queues (stands State.reset 1 .joined) 1 (createPayload ⟨255, 1, .up, .w8, 1, true, true, 1023, 0, none⟩ 0)).lease? i
      = none := by
    intro i
    simp [State.lease?, queues, stands, State.setMember, State.reset]
  refine ⟨asks_waits _ _ _ rfl, ⟨Or.inl rfl, ?_, ?_, ?_, ?_, ?_, ?_, ?_, ?_, ?_⟩, ⟨none_of 0, ?_⟩, ?_,
    ⟨alone_fits _ _ _ _ _ (by decide), Or.inr ?_⟩, crowd_full _ _ (Or.inr rfl), queues_waits _ _ _,
    ⟨Or.inr (by decide +kernel), ?_, ?_, ?_, ?_, ?_, ?_, ?_, ?_, ?_⟩⟩
  · intro p h; revert p; decide
  · intro h; cases h
  · intro p h; revert p; decide
  · intro i l h; rw [none_of] at h; cases h
  · intro b _; exact Or.inl ⟨rfl, rfl⟩
  · intro b hb
    cases hb
    refine ⟨by decide, fun k _ j l _ h => ?_⟩
    rw [none_of] at h; cases h
  · intro h; exact absurd rfl h
  · intro h; exact absurd rfl h
  · intro p h; revert p; decide
  · intro j h; exact absurd h (Nat.not_lt_zero _)
  · intro i h
    simp [State.lease?] at h
  · rintro o' (h | h)
    · cases h
    · exact absurd h (Nat.not_lt_zero _)
  · intro p h; revert p; decide
  · intro _; decide
  · intro p h; revert p; decide
  · intro i l h; rw [none_of'] at h; cases h
  · intro b hb; cases hb
  · intro b hb; cases hb
  · intro _; decide
  · intro _; decide +kernel
  · intro p h; revert p; decide

/-- One request for each refusal, of the host and of a member: a position that is not JOINED, the head as the source of an UP
lease, a stream in the map, channels past 31 and reserved, a member's term of 0, and a limit of 0. -/
theorem witness_CreateRefusalsInOrder :
    (let f : CreateFields := { asked with source := 1 }
     (asks State.reset 1 (createParams f)).HostAsks 1 41 (createParams f) ∧ ¬(asks State.reset 1 (createParams f)).joined 1)
    ∧ (let f : CreateFields := { asked with direction := .up }
       f.direction = .up ∧ f.source = 0)
    ∧ ((alone { leaseA with stream := 255 }).lease? 0 = some { leaseA with stream := 255 })
    ∧ (let f : CreateFields := { asked with base := some 25 }
       ∃ b, f.base = some b ∧ 32 < b.val + f.count)
    ∧ (¬(alone { leaseA with base := some 30 }).ChannelsFree none 24 8 ∧ (24 : Channel).val + 8 ≤ 32)
    ∧ (let s : State := three.setMember 1 { three.member 1 with identity := some ⟨0, 0, 0, 0, 0⟩ }
       s.joined 1 ∧ s.sourceLimit 1 < s.sourceCount 1 + 1 ∧ s.listenLimit 1 < s.listenCount 1 + 1)
    ∧ (let f : CreateFields := ⟨255, 1, .up, .w8, 1, true, true, 0, 0, none⟩
       (queues three 1 (createPayload f 0)).MemberAsks ⟨f.source, createPayload f 0, false⟩ [] ∧ f.listeners = 0 ∧ f.base = none
         ∧ f.source ≠ 0 ∧ f.term = 0 ∧ three.joined 1 ∧ (∀ i, three.lease? i = none) ∧ f.direction = .up
         ∧ ∀ p, hasListener f.listeners p = false)
    ∧ ({ asked with source := 1, listeners := 0, base := none, term := 1023 } : CreateFields).term ≠ 0
    ∧ ¬State.reset.joined 1 := by
  refine ⟨⟨asks_waits _ _ _ rfl, by decide +kernel⟩, ⟨rfl, rfl⟩, rfl, ⟨25, rfl, by decide⟩, ⟨?_, by decide⟩, by decide +kernel,
    ⟨queues_waits _ _ _, rfl, rfl, by decide, rfl, by decide +kernel, by decide +kernel, rfl, by decide⟩, by decide, by decide +kernel⟩
  rintro ⟨-, h⟩
  exact h 6 (by decide) 0 _ (by decide) rfl 30 rfl (by decide)

/-! ### Requests on leases -/

/-- A lease with no listeners and nothing placed, and one that is left without listeners while it is placed. -/
def bare : Lease := lease 10 0 .down ⟨.w24, 2, 0, none⟩
def left : Lease := { leaseA with staged := some ⟨.w24, 2, 0, none⟩ }

/-- A lease bound to channels 4 and 5, open to SHAPE, and one bound to channels 6 to 9. -/
def bindA : Lease := { leaseA with base := some 4, shapeOpen := true }
def bindB : Lease := { lease 11 0 .down ⟨.w16, 4, 8, some 52⟩ with base := some 6 }
def pair : State := holds (alone bindA) 1 bindB

theorem pair_lease? (i : LeaseIndex) (l : Lease) : pair.lease? i = some l ↔ (i = 0 ∧ l = bindA) ∨ (i = 1 ∧ l = bindB) := by
  rw [pair, holds_lease?, alone_lease?]
  by_cases h : i = 1
  · subst h; simp [eq_comm]
  · by_cases h' : i = 0
    · subst h'; simp [eq_comm]
    · simp [h, h']

theorem pair_channels : pair.ChannelsLawful := by
  have a : ∀ c, bindA.Reserves c → 4 ≤ c ∧ c < 6 := by
    rintro c ⟨b, hb, h1, h2⟩
    cases hb
    exact ⟨h1, h2⟩
  have b : ∀ c, bindB.Reserves c → 6 ≤ c ∧ c < 10 := by
    rintro c ⟨b, hb, h1, h2⟩
    cases hb
    exact ⟨h1, h2⟩
  refine ⟨fun i l c h hr => ?_, fun i j l m c h1 h2 hl hm => ?_⟩
  · rcases (pair_lease? i l).mp h with ⟨-, rfl⟩ | ⟨-, rfl⟩
    · exact lt_of_lt_of_le (a c hr).2 (by decide)
    · exact lt_of_lt_of_le (b c hr).2 (by decide)
  · rcases (pair_lease? i l).mp h1 with ⟨rfl, rfl⟩ | ⟨rfl, rfl⟩ <;> rcases (pair_lease? j m).mp h2 with ⟨rfl, rfl⟩ | ⟨rfl, rfl⟩
    · rfl
    · exact absurd (a c hl).2 (Nat.not_lt.mpr (b c hm).1)
    · exact absurd (a c hm).2 (Nat.not_lt.mpr (b c hl).1)
    · rfl

/-- Channels 4 to 6 and 5 to 6 meet those of the second lease, 4 and 5 do not. -/
theorem pair_meets (b : Channel) (n : Nat) (h : b.val ≤ 6) (h' : 6 < b.val + n) : ¬pair.ChannelsFree (some 0) b n := by
  rintro ⟨-, f⟩
  have := f (6 - b.val) (by omega) 1 bindB (by decide) ((pair_lease? 1 bindB).mpr (Or.inr ⟨rfl, rfl⟩)) 6 rfl
  have e : b.val + (6 - b.val) = 6 := by omega
  rw [e] at this
  exact this (by decide)

/-- Each outcome of a new configuration: at once, staged unplaced, at the offset tried, first-fit, and NO_ROOM. -/
theorem witness_ShapeBuildsFromTheLatest :
    (alone leaseA).Names ⟨0, 0⟩ leaseA .live ∧ (alone bare).Names ⟨0, 0⟩ bare .live ∧ (alone left).Names ⟨0, 0⟩ left .live
      ∧ (asks (alone leaseA) 2 (shapeParams ⟨0, 0⟩ .w8 1)).HostAsks 2 41 (shapeParams ⟨0, 0⟩ .w8 1)
      ∧ (asks (alone leaseA) 2 (shapeParams ⟨0, 0⟩ .w32 8)).HostAsks 2 41 (shapeParams ⟨0, 0⟩ .w32 8)
      ∧ bare.latest.listeners = 0 ∧ bare.Unplaced ∧ left.latest.listeners = 0 ∧ ¬left.Unplaced ∧ leaseA.latest.listeners ≠ 0
      ∧ (alone leaseA).PlacedAt 0 .down 0 ⟨.w32, 8, 4, none⟩ (some 0) 0
      ∧ (∀ o, ¬(crowd leaseA).FitsAt 0 .down 0 ⟨.w32, 1, 2, none⟩ o)
      ∧ (alone leaseA).ChannelsFree (some 0) 24 8
      ∧ (queues (alone { leaseA with shapeOpen := true }) 3 (shapePayload ⟨0, 0⟩ .w8 8 0)).MemberAsks
          ⟨3, shapePayload ⟨0, 0⟩ .w8 8 0, false⟩ []
      ∧ (let l : Lease := { bare with sealed := some (.config ⟨.w24, 2, 0, none⟩) }
         (alone l).Names ⟨0, 0⟩ l .live ∧ l.latest.listeners = 0 ∧ l.Unplaced ∧ l.sealedConfig ≠ none)
      ∧ (let l : Lease := { bindA with base := some 25 }
         (alone l).Names ⟨0, 0⟩ l .live ∧ 32 < (25 : Channel).val + (l.adopt { l.latest with width := .w8, count := 8, placement := none }).largestCount)
      ∧ pair.Names ⟨0, 0⟩ bindA .live ∧ pair.ChannelsLawful
      ∧ (let n := (bindA.adopt { bindA.latest with width := .w8, count := 3, placement := none }).largestCount
         (4 : Channel).val + n ≤ 32 ∧ ¬pair.ChannelsFree (some 0) 4 n)
      ∧ (asks pair 2 (shapeParams ⟨0, 0⟩ .w8 3)).HostAsks 2 41 (shapeParams ⟨0, 0⟩ .w8 3)
      ∧ (queues pair 3 (shapePayload ⟨0, 0⟩ .w8 3 0)).MemberAsks ⟨3, shapePayload ⟨0, 0⟩ .w8 3 0, false⟩ [] ∧ bindA.shapeOpen = true := by
  refine ⟨mark_names _ _ (by decide), mark_names _ _ (by decide), mark_names _ _ (by decide), asks_waits _ _ _ rfl,
    asks_waits _ _ _ rfl, by decide, ⟨rfl, ?_, ?_⟩, by decide, ?_, by decide,
    ⟨alone_fits _ _ _ _ _ (by decide), Or.inl rfl⟩, crowd_full _ _ (Or.inl rfl), ⟨by decide, ?_⟩,
    queues_waits _ _ _, ⟨mark_names _ _ (by decide), by decide, ⟨rfl, ?_, ?_⟩, by decide⟩, ⟨mark_names _ _ (by decide), by decide⟩,
    ⟨by simp [pair, alone, holds], by decide⟩, pair_channels, ⟨by decide, pair_meets _ _ (by decide) (by decide)⟩,
    asks_waits _ _ _ rfl, queues_waits _ _ _, rfl⟩
  · intro c h; cases h
  · intro c h; cases h
  · rintro ⟨h, -⟩; cases h
  · intro k _ j l hj hl
    rw [alone_lease?, if_neg (fun e => hj (by rw [e]))] at hl
    cases hl
  · intro c h; cases h; rfl
  · intro c h; cases h

theorem witness_ListenersAreAdded :
    (alone leaseA).Names ⟨0, 0⟩ leaseA .live
      ∧ (asks (alone leaseA) 3 ((Handle.mk 0 0).bytes ++ [posByte 3])).HostAsks 3 41 ((Handle.mk 0 0).bytes ++ [posByte 3])
      ∧ three.joined 3 = true ∧ onSide leaseA.direction leaseA.source 3 = true ∧ hasListener leaseA.latest.listeners 3 = false
      ∧ three.listenCount 3 + 1 ≤ three.listenLimit 3 ∧ hasListener leaseA.latest.listeners 2 = true
      ∧ (let s : State := three.setMember 3 { three.member 3 with identity := some ⟨0, 0, 0, 0, 0⟩ }
         s.joined 3 = true ∧ s.listenLimit 3 < s.listenCount 3 + 1)
      ∧ (queues (alone { leaseA with listenOpen := true }) 3 (handlePayload 3 ⟨0, 0⟩ 0)).MemberAsks
          ⟨3, handlePayload 3 ⟨0, 0⟩ 0, false⟩ [] ∧ ¬(alone { leaseA with listenOpen := true }).joined 3
      ∧ (let s : State := holds (three.setMember 3 { three.member 3 with identity := some ⟨0, 0, 0, 0, 0⟩ }) 0
           { leaseA with listenOpen := true }
         (queues s 3 (handlePayload 3 ⟨0, 0⟩ 0)).MemberAsks ⟨3, handlePayload 3 ⟨0, 0⟩ 0, false⟩ []
           ∧ s.joined 3 = true ∧ s.listenLimit 3 < s.listenCount 3 + 1)
      ∧ (alone leaseA).PlacedAt 0 .down 0 ⟨.w24, 2, 12, none⟩ (some 0) 0
      ∧ (∀ o, ¬(crowd leaseA).FitsAt 0 .down 0 ⟨.w32, 1, 2, none⟩ o) :=
  ⟨mark_names _ _ (by decide), asks_waits _ _ _ rfl, by decide +kernel, by decide, by decide, by decide +kernel, by decide,
    by decide +kernel, queues_waits _ _ _, by decide +kernel, ⟨queues_waits _ _ _, by decide +kernel⟩,
    ⟨alone_fits _ _ _ _ _ (by decide), Or.inl rfl⟩, crowd_full _ _ (Or.inl rfl)⟩

/-- The last listener, one of two, and one that is none. -/
theorem witness_ListenersAreDropped :
    (alone leaseA).Names ⟨0, 0⟩ leaseA .live ∧ leaseA.latest.placement = some 0
      ∧ hasListener leaseA.latest.listeners 2 = true ∧ withoutListener leaseA.latest.listeners 2 = 0
      ∧ withoutListener 12 2 ≠ 0 ∧ hasListener leaseA.latest.listeners 3 = false
      ∧ (asks (alone leaseA) 4 ((Handle.mk 0 0).bytes ++ [posByte 2])).HostAsks 4 41 ((Handle.mk 0 0).bytes ++ [posByte 2])
      ∧ (queues (alone leaseA) 2 (handlePayload 4 ⟨0, 0⟩ 0)).MemberAsks ⟨2, handlePayload 4 ⟨0, 0⟩ 0, false⟩ [] :=
  ⟨mark_names _ _ (by decide), rfl, by decide, by decide, by decide, by decide, asks_waits _ _ _ rfl, queues_waits _ _ _⟩

/-- Every row of the tables of R14 and R104. -/
theorem witness_RetireByItsTable :
    (alone bare).Names ⟨0, 0⟩ bare .live ∧ bare.mark = none ∧ bare.NothingInFlight ∧ leaseA.mark = none ∧ ¬leaseA.NothingInFlight
      ∧ (alone (retiring .expired)).Names ⟨0, 0⟩ (retiring .expired) .retiring
      ∧ (retiring .expired).mark = some ⟨.expired, .staged⟩ ∧ (retiring (.requested 15)).mark = some ⟨.requested 15, .staged⟩
      ∧ (retiring .orphaned).mark = some ⟨.orphaned, .staged⟩
      ∧ (asks (alone bare) 5 (Handle.mk 0 0).bytes).HostAsks 5 41 (Handle.mk 0 0).bytes
      ∧ (queues (alone bare) 0 (handlePayload 5 ⟨0, 0⟩ 0)).MemberAsks ⟨bare.owner, handlePayload 5 ⟨0, 0⟩ 0, false⟩ []
      ∧ (queues (alone { bare with owner := 3 }) 3 (handlePayload 5 ⟨0, 0⟩ 0)).MemberAsks
          ⟨({ bare with owner := 3 } : Lease).owner, handlePayload 5 ⟨0, 0⟩ 0, false⟩ [] := by
  refine ⟨mark_names _ _ (by decide), rfl, ⟨rfl, rfl, ?_⟩, rfl, ?_, mark_names _ _ (by decide), rfl, rfl, rfl, asks_waits _ _ _ rfl,
    queues_waits _ _ _, queues_waits _ _ _⟩
  · intro c h; cases h
  · rintro ⟨h, -⟩; cases h

theorem witness_RenewByItsTable :
    (asks (alone leaseA) 6 ((Handle.mk 0 0).bytes ++ newTermBytes none)).HostAsks 6 41 ((Handle.mk 0 0).bytes ++ newTermBytes none)
      ∧ (asks (alone leaseA) 6 ((Handle.mk 0 0).bytes ++ newTermBytes (some 0))).HostAsks 6 41 ((Handle.mk 0 0).bytes ++ newTermBytes (some 0))
      ∧ (asks (alone leaseA) 6 ((Handle.mk 0 0).bytes ++ newTermBytes (some 1023))).HostAsks 6 41
          ((Handle.mk 0 0).bytes ++ newTermBytes (some 1023))
      ∧ leaseA.owner = 0 ∧ ({ leaseA with owner := 3 } : Lease).owner ≠ 0 ∧ leaseB.source = 1
      ∧ (queues (alone leaseB) 1 (handlePayload 6 ⟨0, 0⟩ 0)).MemberAsks ⟨1, handlePayload 6 ⟨0, 0⟩ 0, false⟩ []
      ∧ (alone (retiring (.requested 0))).Names ⟨0, 0⟩ (retiring (.requested 0)) .retiring
      ∧ (alone (retiring .orphaned)).Names ⟨0, 0⟩ (retiring .orphaned) .retiring ∧ (alone leaseA).Names ⟨0, 0⟩ leaseA .live :=
  ⟨asks_waits _ _ _ rfl, asks_waits _ _ _ rfl, asks_waits _ _ _ rfl, rfl, by decide, rfl, queues_waits _ _ _,
    mark_names _ _ (by decide), mark_names _ _ (by decide), mark_names _ _ (by decide)⟩

/-- The host's request on a LIVE lease with a member's LISTEN, and with its SHAPE, queued behind it; and on a lease
in the other states. -/
theorem witness_SetRightsReplacesBothFlags :
    let ps := (Handle.mk 0 0).bytes ++ [rightsByte true false]
    let s : State := { asks (alone leaseA) 7 ps with engine := ⟨[⟨2, handlePayload 3 ⟨0, 0⟩ 0, true⟩], .host⟩ }
    let u : State := { asks (alone leaseA) 7 ps with engine := ⟨[⟨2, shapePayload ⟨0, 0⟩ .w8 1 0, true⟩], .host⟩ }
    s.HostAsks 7 41 ps ∧ u.HostAsks 7 41 ps ∧ exec .setRights s = .next (after .setRights s) ∧ (2 : Position) ≠ 0 ∧ leaseA.owner ≠ 2
      ∧ (alone leaseA).Names ⟨0, 0⟩ leaseA .live ∧ (alone (retiring .expired)).Names ⟨0, 0⟩ (retiring .expired) .retiring
      ∧ (alone going).Names ⟨0, 0⟩ going .going :=
  ⟨⟨rfl, Or.inr rfl⟩, ⟨rfl, Or.inr rfl⟩, rfl, by decide, by decide, mark_names _ _ (by decide), mark_names _ _ (by decide),
    mark_names _ _ (by decide)⟩

/-- Channels 30 and 31 fit, 31 and 32 do not; a reserved channel, a lease that cannot be bound, and the other states. -/
theorem witness_BindLocalMovesTheReservation :
    (alone leaseA).Names ⟨0, 0⟩ leaseA .live ∧ leaseA.direction = .down ∧ leaseA.source = 0 ∧ leaseB.source ≠ 0
      ∧ (asks (alone leaseA) 8 ((Handle.mk 0 0).bytes ++ [0xFF])).HostAsks 8 41 ((Handle.mk 0 0).bytes ++ [0xFF])
      ∧ (asks (alone leaseA) 8 ((Handle.mk 0 0).bytes ++ [BitVec.ofNat 8 30])).HostAsks 8 41 ((Handle.mk 0 0).bytes ++ [BitVec.ofNat 8 30])
      ∧ (alone leaseA).ChannelsFree (some 0) 30 leaseA.largestCount ∧ 32 < (31 : Channel).val + leaseA.largestCount
      ∧ pair.Names ⟨0, 0⟩ bindA .live ∧ pair.ChannelsLawful ∧ bindA.direction = .down ∧ bindA.source = 0
      ∧ (5 : Channel).val + bindA.largestCount ≤ 32 ∧ ¬pair.ChannelsFree (some 0) 5 bindA.largestCount
      ∧ (asks pair 8 ((Handle.mk 0 0).bytes ++ [BitVec.ofNat 8 5])).HostAsks 8 41 ((Handle.mk 0 0).bytes ++ [BitVec.ofNat 8 5])
      ∧ (alone (retiring .expired)).Names ⟨0, 0⟩ (retiring .expired) .retiring ∧ (alone going).Names ⟨0, 0⟩ going .going
      ∧ (asks (alone going) 8 ((Handle.mk 0 0).bytes ++ [baseByte none])).HostAsks 8 41 ((Handle.mk 0 0).bytes ++ [baseByte none]) := by
  refine ⟨mark_names _ _ (by decide), rfl, rfl, by decide, asks_waits _ _ _ rfl, asks_waits _ _ _ rfl, ⟨by decide, ?_⟩, by decide,
    ⟨by simp [pair, alone, holds], by decide⟩, pair_channels, rfl, rfl, by decide, pair_meets _ _ (by decide) (by decide),
    asks_waits _ _ _ rfl, mark_names _ _ (by decide), mark_names _ _ (by decide), asks_waits _ _ _ rfl⟩
  intro k _ j l hj hl
  rw [alone_lease?, if_neg (fun e => hj (by rw [e]))] at hl
  cases hl

/-- A QUERY with the flag clear and set, and a RESOLVE of a stream that is there once, and of one that is not. -/
theorem witness_QueryAndResolveRead :
    (alone going).leases[(0 : LeaseIndex)] = ⟨0, some going⟩
      ∧ (asks (alone going) 9 ((Handle.mk 0 0).bytes ++ [0])).HostAsks 9 41 ((Handle.mk 0 0).bytes ++ [0])
      ∧ (asks (alone going) 9 ((Handle.mk 0 0).bytes ++ [1])).HostAsks 9 41 ((Handle.mk 0 0).bytes ++ [1])
      ∧ (alone leaseA).lease? 0 = some leaseA ∧ leaseA.stream = 10 ∧ (∀ j m, (alone leaseA).lease? j = some m → m.stream = 10 → j = 0)
      ∧ (∀ i l, (alone leaseA).lease? i = some l → l.stream ≠ 255) ∧ (10 : Stream) ≠ 0 ∧ (255 : Stream) ≠ 0
      ∧ (asks (alone leaseA) 10 [255]).HostAsks 10 41 [255] ∧ (asks (alone leaseA) 10 [10]).HostAsks 10 41 [10]
      ∧ (queues (alone leaseA) 3 (streamPayload 10 0)).MemberAsks ⟨3, streamPayload 10 0, false⟩ [] := by
  refine ⟨by simp [alone, holds], asks_waits _ _ _ rfl, asks_waits _ _ _ rfl, by simp [alone_lease?], rfl, ?_, ?_, by decide, by decide,
    asks_waits _ _ _ rfl, asks_waits _ _ _ rfl, queues_waits _ _ _⟩
  · intro j m h _
    rw [alone_lease?] at h
    by_contra hj
    rw [if_neg hj] at h
    cases h
  · intro i l h
    rw [alone_lease?] at h
    split at h
    · cases h; decide
    · cases h

/-! ### Requests on the device -/

/-- A staged mark, a staged configuration, nothing staged, an entry that is FREE, and a set with no notice. -/
theorem witness_SealingMakesTheSet :
    (alone (retiring .expired)).lease? 0 = some (retiring .expired) ∧ (retiring .expired).mark = some ⟨.expired, .staged⟩
      ∧ (alone left).lease? 0 = some left ∧ left.mark = none ∧ left.staged = some ⟨.w24, 2, 0, none⟩
      ∧ leaseA.hasStaged = false ∧ (alone leaseA).lease? 127 = none
      ∧ (framed (alone left) 5 none).chain.lead = some 8 ∧ (framed (alone left) 5 none).noticesFor
          (framed (alone left) 5 none).stagedDeltas = []
      ∧ (holds (framed three 5 none) 0 left).noticesFor (holds (framed three 5 none) 0 left).stagedDeltas = [⟨0, 2, false⟩] := by
  decide +kernel

/-- A lease that the plan keeps, one that it moves, and two that no plan takes. -/
theorem witness_RepackSealsThePlan :
    (asks State.reset 11 []).HostAsks 11 41 [] ∧ State.reset.chain.state = .stopped
      ∧ (framed (alone leaseA) 5 none).chain.state = .running ∧ (framed (alone leaseA) 5 none).publisher.stage = .idle
      ∧ (framed (alone leaseA) 5 none).repackPlan = some [(⟨0, .down, 0, ⟨.w24, 2, 4, some 0⟩⟩, 0)]
      ∧ (∀ i, movedTo [(⟨0, .down, 0, ⟨.w24, 2, 4, some 0⟩⟩, 0)] i = none)
      ∧ (alone { leaseA with active := ⟨.w24, 2, 4, some 50⟩ }).repackPlan = some [(⟨0, .down, 0, ⟨.w24, 2, 4, some 50⟩⟩, 0)]
      ∧ movedTo [(⟨0, .down, 0, ⟨.w24, 2, 4, some 50⟩⟩, 0)] 0 ≠ none
      ∧ (holds (alone (lease 1 0 .down ⟨.w32, 8, 2, some 0⟩)) 1 (lease 2 0 .down ⟨.w32, 8, 2, some 100⟩)).repackPlan = none
      ∧ left.staged ≠ none :=
  ⟨asks_waits _ _ _ rfl, rfl, rfl, rfl, by decide +kernel, by decide +kernel, by decide +kernel, by decide +kernel,
    by decide +kernel, by decide⟩

/-- The lease with the free table as its only rule: nothing in the state of a waiting REPACK has a staged part or a mark. -/
theorem witness_RepackIsFree :
    ∀ i l, (framed (alone leaseA) 5 none).lease? i = some l → l.staged = none ∧ l.mark = none := by
  intro i l h
  have : (alone leaseA).lease? i = some l := h
  rw [alone_lease?] at this
  split at this
  · cases this; exact ⟨rfl, rfl⟩
  · cases this

/-- The plan of the worked example, and two leases of 272 bits on one hop, the second of which finds no offset. -/
theorem witness_RepackPlanIsFirstFitInOrder :
    placed.repackPlan = some [(⟨2, .down, 2, leaseC.active⟩, 72), (⟨0, .down, 0, leaseA.active⟩, 72), (⟨1, .down, 1, leaseB.active⟩, 0)]
      ∧ (holds (alone (lease 1 0 .down ⟨.w32, 8, 2, some 0⟩)) 1 (lease 2 0 .down ⟨.w32, 8, 2, some 100⟩)).repackPlan = none
      ∧ (⟨0, .down, 0, ⟨.w32, 8, 2, some 0⟩⟩ : PlanItem).before ⟨1, .down, 0, ⟨.w32, 8, 2, some 100⟩⟩ = true := by decide +kernel

theorem staged_left (n : FrameNumber) : (framed (alone left) n none).SomethingStaged :=
  ⟨0, left, by simp [State.lease?, framed, alone, holds], Or.inl (by decide)⟩

theorem staged_none (n : FrameNumber) : ¬(framed (alone leaseA) n none).SomethingStaged := by
  rintro ⟨i, l, h, h'⟩
  have h2 := witness_RepackIsFree i l h
  rcases h' with h' | ⟨c, h'⟩
  · exact h' h2.1
  · rw [h2.2] at h'; cases h'

theorem witness_PublishSealsWhatIsStaged :
    (asks State.reset 12 []).HostAsks 12 41 [] ∧ State.reset.chain.state = .stopped
      ∧ (asks (framed (alone left) 5 none) 12 []).HostAsks 12 41 [] ∧ (framed (alone left) 5 none).chain.state = .running
      ∧ (framed (alone left) 5 none).publisher.stage.set? = none ∧ (framed (alone left) 5 none).SomethingStaged
      ∧ ¬(framed (alone leaseA) 5 none).SomethingStaged
      ∧ (sample.setStage (.switching ⟨1, [], [], none⟩ 9)).publisher.stage.set? ≠ none :=
  ⟨asks_waits _ _ _ rfl, rfl, asks_waits _ _ _ rfl, rfl, rfl, staged_left 5, staged_none 5, by decide⟩

/-- Window 0 and window 255, each mode, each stage of the publisher. -/
theorem witness_SetPublishingRecordsModeAndWindow :
    (asks (framed (alone left) 5 none) 13 [PublishingMode.auto.code, 255]).HostAsks 13 41 [PublishingMode.auto.code, 255]
      ∧ (asks State.reset 13 [PublishingMode.manual.code, 0]).HostAsks 13 41 [PublishingMode.manual.code, 0]
      ∧ (framed (alone left) 5 none).publisher.stage = .idle ∧ (framed (alone left) 5 none).SomethingStaged
      ∧ (framed (alone left) 5 none).chain.state = .running ∧ ¬(framed (alone leaseA) 5 none).SomethingStaged
      ∧ (sample.setStage (.batching 9)).publisher.stage = .batching 9
      ∧ (sample.setStage (.switching ⟨1, [], [], none⟩ 9)).publisher.stage.set? ≠ none
      ∧ exec .chainStop sample = .next (after .chainStop sample) ∧ exec .deviceReset sample = .next (after .deviceReset sample) :=
  ⟨asks_waits _ _ _ rfl, asks_waits _ _ _ rfl, rfl, staged_left 5, rfl, staged_none 5, rfl, by decide, rfl, rfl⟩

theorem witness_MemberRecordRequests :
    (asks three 14 [posByte 1]).HostAsks 14 41 [posByte 1] ∧ (asks three 14 [posByte 15]).HostAsks 14 41 [posByte 15]
      ∧ (asks three 15 (expectedParams 15 (some ⟨65535, 255⟩) [0, 0, 0])).HostAsks 15 41 (expectedParams 15 (some ⟨65535, 255⟩) [0, 0, 0])
      ∧ (asks three 15 (expectedParams 1 none [1, 2, 3])).HostAsks 15 41 (expectedParams 1 none [1, 2, 3])
      ∧ (asks three 16 [AdmissionMode.closed.code]).HostAsks 16 41 [AdmissionMode.closed.code]
      ∧ (1 : Position) ≠ 0 ∧ (15 : Position) ≠ 0 :=
  ⟨asks_waits _ _ _ rfl, asks_waits _ _ _ rfl, asks_waits _ _ _ rfl, asks_waits _ _ _ rfl, asks_waits _ _ _ rfl, by decide, by decide⟩

theorem witness_ChainStartBeginsAtFrameZero :
    (asks State.reset 17 [Rate.r48000.code, BitVec.ofNat 8 2, BitVec.ofNat 8 2]).HostAsks 17 41 [Rate.r48000.code, BitVec.ofNat 8 2, BitVec.ofNat 8 2]
      ∧ (asks sample 17 [Rate.r44100.code, BitVec.ofNat 8 15, BitVec.ofNat 8 64]).HostAsks 17 41
          [Rate.r44100.code, BitVec.ofNat 8 15, BitVec.ofNat 8 64]
      ∧ State.reset.chain.state = .stopped ∧ sample.chain.state = .running :=
  ⟨asks_waits _ _ _ rfl, asks_waits _ _ _ rfl, rfl, rfl⟩

/-- A lease that the stop keeps, and ones that it frees: with a term, with a member as source, with a mark. -/
theorem witness_ChainStopFreesOrKeeps :
    (asks sample 18 []).HostAsks 18 41 [] ∧ sample.chain.state = .running ∧ (asks State.reset 18 []).HostAsks 18 41 []
      ∧ State.reset.chain.state = .stopped ∧ sample.lease? 0 = some leaseS ∧ sample.lease? 127 = none
      ∧ (leaseS.term = 0 ∧ leaseS.source = 0 ∧ leaseS.mark = none) ∧ leaseB.source ≠ 0 ∧ leaseP.term ≠ 0
      ∧ (retiring .orphaned).mark ≠ none :=
  ⟨asks_waits _ _ _ rfl, rfl, asks_waits _ _ _ rfl, rfl, (sample_lease? _ _).mpr ⟨rfl, rfl⟩, by decide +kernel,
    ⟨rfl, rfl, rfl⟩, by decide, by decide, by decide⟩

/-- The device item, the first and the last member item, the first and the last lease item, and the empty set. -/
theorem witness_AttentionAndStatusAreRead :
    (asks (State.reset.raiseDevice Reason.setApplied) 19 []).HostAsks 19 41 []
      ∧ (State.reset.raiseDevice Reason.setApplied).attention.device ≠ 0
      ∧ (State.reset.raiseMember 1 Reason.lost).attention.members[(0 : Fin 15)] ≠ 0
      ∧ (State.reset.raiseMember 15 Reason.lost).attention.members[(14 : Fin 15)] ≠ 0
      ∧ (∀ j, j < 14 → (State.reset.raiseMember 15 Reason.lost).attention.members[(j : Fin 15)] = 0)
      ∧ (State.reset.raiseLease 0 Reason.expired).attention.leases[(0 : LeaseIndex)] = some ⟨0, Reason.expired⟩
      ∧ (State.reset.raiseLease 127 Reason.expired).attention.leases[(127 : LeaseIndex)] = some ⟨0, Reason.expired⟩
      ∧ (∀ j, j < 127 → (State.reset.raiseLease 127 Reason.expired).attention.leases[(j : LeaseIndex)] = none)
      ∧ State.reset.attention.device = 0 ∧ (∀ k : Fin 15, State.reset.attention.members[k] = 0)
      ∧ (∀ i : LeaseIndex, State.reset.attention.leases[i] = none) ∧ (asks State.reset 20 []).HostAsks 20 41 [] :=
  ⟨asks_waits _ _ _ rfl, by decide, by decide +kernel, by decide +kernel, by decide +kernel, by decide +kernel, by decide +kernel,
    by decide +kernel, rfl, by decide +kernel, by decide +kernel, asks_waits _ _ _ rfl⟩

/-! ### The frame -/

/-- A frame in which nothing of its start is left, over a table with no term. -/
theorem framed_settled (s : State) (n : FrameNumber) (m : Message) (h : ∀ i l, s.lease? i = some l → l.expiry = none)
    (h1 : s.publisher.stage = .idle) : (framed s n (some m)).Settled := by
  refine ⟨rfl, ?_, ?_, ?_, fun e => by cases e⟩
  · simp [State.applicationDue, State.inFrame, framed, h1]
  · intro i l hl he
    rw [h i l hl] at he
    cases he
  · simp [State.windowDue, State.inFrame, framed, h1]

theorem three_settled (n : FrameNumber) (m : Message) : (framed three n (some m)).Settled :=
  framed_settled _ _ _ (fun i l h => by simp [State.lease?, three, stands, State.setMember, State.reset] at h) rfl

/-- The state with its DOWN region driven. -/
def drove (s : State) : State := s.setFrame { s.chain.frame with downRegion := some 0 }

theorem drove_at (s : State) (h : s.Settled) : (drove s).AtResponse :=
  ⟨⟨h.frame, h.application, h.expiry, h.window, h.control⟩, fun e => by cases e⟩

theorem alone_settled (l : Lease) (h : l.expiry = none) (n : FrameNumber) (m : Message) : (framed (alone l) n (some m)).Settled := by
  refine framed_settled _ _ _ (fun i l' h' => ?_) rfl
  rw [alone_lease?] at h'
  split at h'
  · cases h'; exact h
  · cases h'

theorem witness_FrameStartOpensTheNextFrame :
    State.reset.chain.state = .stopped
      ∧ (let s := after .chainStart (asks State.reset 17 [0, 4, 8]); s.chain.state = .running ∧ s.chain.frame.started = false)
      ∧ (framed three 0xFFFFFFFF (some .idle)).Settled ∧ (framed three 9 (some .idle)).unanswered = some .idle
      ∧ (framed three 9 (some .switch)).unanswered = some .switch
      ∧ (framed three 9 (some (.addressed .poll 3))).responseTaken.unanswered = none :=
  ⟨rfl, by decide +kernel, three_settled _ _, rfl, rfl, rfl⟩

/-- A lead of 1 and of 64; a running chain before its first frame, and a stopped one. -/
theorem witness_DueEventsAreTakenFirst :
    (framed three 9 none).inFrame = true
      ∧ (let s := framed three 9 none; ({ s with chain := { s.chain with lead := some 1 } } : State).chain.lead = some 1
          ∧ ({ s with chain := { s.chain with lead := some 64 } } : State).inFrame = true)
      ∧ State.reset.inFrame = false ∧ (after .chainStart (asks State.reset 17 [0, 4, 8])).inFrame = false := by decide +kernel

theorem witness_ExpiryAndWindowEnd :
    (let s := framed (alone { leaseA with expiry := some 9 }) 9 none
     s.inFrame = true ∧ s.lease? 0 = some { leaseA with expiry := some 9 } ∧ leaseA.mark = none ∧ ¬leaseA.NothingInFlight)
    ∧ (let s := framed (alone { bare with expiry := some 9 }) 9 none
       s.lease? 0 = some { bare with expiry := some 9 } ∧ ({ bare with expiry := some 9 } : Lease).NothingInFlight)
    ∧ (framed (alone { bare with expiry := some 9 }) 8 none).lease? 0 = some { bare with expiry := some 9 }
    ∧ (retiring .expired).mark ≠ none
    ∧ ((framed (alone left) 9 none).setStage (.batching 9)).publisher.stage = .batching 9
    ∧ ((framed (alone left) 9 none).setStage (.batching 9)).inFrame = true
    ∧ ((framed (alone left) 9 none).setStage (.batching 9)).SomethingStaged
    ∧ ¬((framed (alone leaseA) 9 none).setStage (.batching 9)).SomethingStaged
    ∧ ((framed (alone left) 9 none).setStage (.batching 10)).publisher.stage = .batching 10 := by
  refine ⟨⟨rfl, by decide +kernel, rfl, ?_⟩, ⟨by decide +kernel, rfl, rfl, ?_⟩, by decide +kernel, by decide, rfl, rfl, staged_left 9,
    staged_none 9, rfl⟩
  · rintro ⟨h, -⟩; cases h
  · intro c h; cases h

/-- In the switch frame: a retirement of each kind of cause, a configuration with and without a placement, a staged
retirement and a staged configuration left with nothing placed; and another frame. -/
theorem witness_SetApplicationSwitchesTheLayout :
    let set : ChangeSet := ⟨1, [⟨⟨0, 0⟩, .retire (.requested 0)⟩], [], none⟩
    let s := (framed (alone going) 9 none).setStage (.switching set 9)
    s.inFrame = true ∧ s.publisher.stage = .switching set 9 ∧ s.lease? 0 = some going ∧ set.namesIndex 0 = true
      ∧ going.sealed = some .retirement ∧ going.mark = some ⟨.requested 0, .sealed⟩
      ∧ s.lease? 1 = none ∧ s.publisher.mode = .auto
      ∧ ((framed (alone going) 9 none).setStage (.switching set 10)).publisher.stage = .switching set 10
      ∧ (let l : Lease := { retiring .expired with sealed := some (.config ⟨.w24, 2, 0, none⟩) }
         l.mark = some ⟨.expired, .staged⟩ ∧ (l.sealedConfig.getD l.active).placement = none ∧ l.sealed ≠ some .retirement
           ∧ l.staged = none)
      ∧ (let l : Lease := { leaseA with sealed := some (.config ⟨.w24, 2, 0, none⟩), staged := some ⟨.w8, 1, 0, none⟩ }
         l.mark = none ∧ (l.sealedConfig.getD l.active).placement = none ∧ l.staged = some ⟨.w8, 1, 0, none⟩)
      ∧ ((retiring .expired).sealedConfig.getD (retiring .expired).active).placement ≠ none := by decide +kernel

/-! ### The control slot -/

/-- A set with OPEN notices for members 1 and 3. -/
def telling : ChangeSet := ⟨1, [⟨⟨0, 0⟩, .config leaseA.active⟩], [⟨0, 1, false⟩, ⟨0, 3, false⟩], some 2⟩

theorem telling_gives : telling.Gives 2 ⟨0, 3, false⟩ := by
  refine ⟨by decide, rfl, by decide, ?_⟩
  decide

/-- The switch frame; SWITCH; an ANSWER and an ASSIGN with the mark absent and with nothing to tell; a NOTICE with the mark ANSWER and with an
empty list. -/
theorem witness_ChoiceByPrecedence :
    (let s := (framed three 9 none).setStage (.switching telling 9)
     s.inFrame = true ∧ s.publisher.stage = .switching telling s.chain.counter)
    ∧ (let s := (framed three 9 none).setStage (.switching telling 10)
     s.inFrame = true ∧ s.chain.frame.control = none ∧ s.applicationDue = false ∧ s.publisher.stage = .switching telling 10
       ∧ laterThan 10 s.chain.counter = true)
    ∧ (let s := framed (three.setMember 3 { three.member 3 with answer := some ⟨3, .done, false, ⟨0, 0⟩, 0⟩ }) 9 none
       let t : State := { s with chain := { s.chain with delivery := [.answer 3] } }
       t.inFrame = true ∧ t.applicationDue = false ∧ t.chain.delivery = [.answer 3] ∧ t.chain.alternation ≠ some .answer
         ∧ (t.member 3).answer = some ⟨3, .done, false, ⟨0, 0⟩, 0⟩ ∧ t.publisher.stage = .idle)
    ∧ (let s := framed (stands three 4 .admitting) 9 none
       let t : State := { s with chain := { s.chain with delivery := [.assign 4], alternation := some .answer } }
       t.inFrame = true ∧ t.applicationDue = false ∧ t.chain.delivery = [.assign 4] ∧ t.publisher.stage = .idle)
    ∧ (let s := (framed three 9 none).setStage (.notifying telling)
       s.inFrame = true ∧ s.applicationDue = false ∧ s.publisher.stage = .notifying telling ∧ telling.rotation = some 2
         ∧ s.chain.delivery = []) := by decide +kernel

/-- An open call to the first and to the last position, a POLL to the next member up and after the wrap, and IDLE. -/
theorem witness_ChoiceWithNothingWaiting :
    (let s := framed State.reset 0 none
     s.inFrame = true ∧ s.applicationDue = false ∧ s.chain.frame.control = none ∧ s.chain.delivery = []
       ∧ s.members.admission ≠ .closed ∧ (∀ p, (s.member p).state ≠ .admitting ∧ (s.member p).state ≠ .lost)
       ∧ s.members.lastOpenCall = none ∧ ∀ q, 1 ≤ q → s.joined q = false)
    ∧ (let s := framed (stands State.reset 14 .joined) 256 none
       s.joined (15 - 1) = true ∧ (∀ q, 15 ≤ q → s.joined q = false) ∧ 256 ≤ (s.chain.counter - 0).toNat)
    ∧ (let s := framed three 9 none
       let t : State := { s with chain := { s.chain with pollMark := some 1 }, members := { s.members with lastOpenCall := some 9 } }
       ¬256 ≤ (t.chain.counter - 9).toNat ∧ t.joined 2 = true ∧ (∀ q : Position, 1 < q → q < 2 → t.joined q = false))
    ∧ (let s := framed three 9 none
       let t : State := { s with chain := { s.chain with pollMark := some 3 }, members := { s.members with admission := .closed } }
       t.members.admission = .closed ∧ t.joined 1 = true ∧ (∀ q : Position, 3 < q → t.joined q = false)
         ∧ ∀ q : Position, q < 1 → t.joined q = false)
    ∧ (framed State.reset 9 (some .idle)).chain.frame.control ≠ none := by decide +kernel

theorem nothing_told (s : State) (h : s.publisher.stage = .idle) : ¬s.NoticeWaits := by
  rintro ⟨set, h', -⟩
  rw [h] at h'
  cases h'

theorem witness_ControlMessageLayout :
    telling.deltas[(⟨0, 3, false⟩ : Notice).delta]? = some ⟨⟨0, 0⟩, .config leaseA.active⟩
      ∧ (alone leaseA).leases[(0 : LeaseIndex)] = ⟨0, some leaseA⟩ ∧ 1 ≤ leaseA.active.count ∧ leaseA.active.count ≤ 8
      ∧ leaseB.source = 1 ∧ leaseA.source ≠ 3 ∧ hasListener leaseA.active.listeners 2 = true
      ∧ hasListener leaseA.active.listeners 3 = false :=
  ⟨rfl, by simp [alone, holds], by decide, by decide, rfl, by decide, by decide, by decide⟩

/-! ### The response word -/

theorem top_of_append (n m : Nat) (x : BitVec n) (y : BitVec m) (h : n ≠ 0) : (x ++ y).msb = x.msb := by
  rw [BitVec.msb_append, if_neg h]

theorem witness_ResponsesAreJudged :
    (drove (framed three 9 (some (.addressed .poll 3)))).AtResponse
      ∧ (drove (framed three 9 (some (.addressed .poll 3)))).unanswered = some (.addressed .poll 3)
      ∧ (drove (framed three 9 (some (.addressed .answer 1)))).unanswered = some (.addressed .answer 1)
      ∧ (drove (framed three 9 (some (.addressed (.notice 0) 3)))).unanswered = some (.addressed (.notice 0) 3)
      ∧ (drove (framed (stands three 4 .admitting) 9 (some (.addressed .assign 4)))).unanswered = some (.addressed .assign 4)
      ∧ ((framed (stands three 4 .admitting) 9 (some (.addressed .assign 4))).member 4).state = .admitting
      ∧ (∀ ack request payload, (0 : ChainWord) ≠ responseWordOf ack request false 3 0 payload)
      ∧ three.joined 3 = true ∧ three.joined 4 = false ∧ (three.member 3).answer = none
      ∧ (queues three 3 0).joined 3 = true ∧ (∃ e ∈ (queues three 3 0).engine.queue, e.position = 3)
      ∧ ((framed three 9 none).setStage (.notifying telling)).publisher.stage = .notifying telling
      ∧ (framed three 9 none).chain.lead = some 8 := by
  refine ⟨drove_at _ (three_settled _ _), rfl, rfl, rfl, rfl, by decide +kernel, ?_, by decide +kernel, by decide +kernel, by decide +kernel,
    by decide +kernel, ⟨_, List.mem_singleton.mpr rfl, rfl⟩, rfl, rfl⟩
  intro ack request payload h
  have e : (responseWordOf ack request false 3 0 payload).msb = true :=
    (top_of_append 56 8 _ _ (by decide)).trans ((top_of_append 16 40 _ _ (by decide)).trans ((top_of_append 8 8 _ _ (by decide)).trans
      ((top_of_append 4 4 _ _ (by decide)).trans ((top_of_append 3 1 _ _ (by decide)).trans ((top_of_append 2 1 _ _ (by decide)).trans
        ((top_of_append 1 1 _ _ (by decide)).trans rfl))))))
  rw [← h] at e
  exact absurd e (by decide)

theorem witness_JoinsAreDecided :
    (drove (framed three 9 (some (.openCall 4)))).AtResponse ∧ (drove (framed three 9 (some (.openCall 4)))).unanswered = some (.openCall 4)
      ∧ (4 : Position) ≠ 0 ∧ three.members.admission = .openMode
      ∧ (let s := after .setAdmission (asks three 16 [1])
         let t := s.setMember 4 { s.member 4 with expected := some ⟨100, 5⟩ }
         t.members.admission = .listed ∧ (t.member 4).expected = some ⟨100, 5⟩)
      ∧ (after .setAdmission (asks three 16 [2])).members.admission = .closed
      ∧ (drove (framed three 9 (some .idle))).AtResponse ∧ (drove (framed three 9 (some .idle))).unanswered = some .idle :=
  ⟨drove_at _ (three_settled _ _), rfl, by decide, rfl, by decide +kernel, by decide +kernel, drove_at _ (three_settled _ _), rfl⟩

/-- The miss below the limit and the one that reaches it, for a member and for an admission. -/
theorem witness_MissesReachTheLimit :
    (drove (framed three 9 (some (.addressed .poll 3)))).AtResponse ∧ (3 : Position) ≠ 0
      ∧ (drove (framed three 9 (some (.addressed .poll 3)))).unanswered = some (.addressed .poll 3)
      ∧ (framed three 9 (some (.addressed .poll 3))).members.missLimit = some 4
      ∧ (let s := framed (three.setMember 3 { three.member 3 with misses := 2 }) 9 (some (.addressed .poll 3))
         (s.member 3).misses + 1 < 4)
      ∧ (let s := framed (three.setMember 3 { three.member 3 with misses := 3 }) 9 (some (.addressed .poll 3))
         4 ≤ (s.member 3).misses + 1 ∧ (s.member 3).state = .joined)
      ∧ (let s := stands three 4 .admitting
         let t := framed (s.setMember 4 { s.member 4 with misses := 3 }) 9 (some (.addressed .assign 4))
         4 ≤ (t.member 4).misses + 1 ∧ (t.member 4).state = .admitting ∧ t.unanswered = some (.addressed .assign 4))
      ∧ (∀ k, (drove (framed three 9 (some (.addressed .poll 2)))).unanswered ≠ some (.addressed k 3)) :=
  ⟨drove_at _ (three_settled _ _), by decide, rfl, rfl, by decide +kernel, by decide +kernel, by decide +kernel, fun k h => by cases h⟩

/-- The loss of member 1 with an admission above, of the last position, a source lost at once and by a mark, a listener
lost, and a set told and untold. -/
theorem witness_LossSweepsAndCleans :
    (1 : Position) ≠ 0 ∧ (15 : Position) ≠ 0
      ∧ (let s := stands three 4 .admitting
         s.Swept 1 1 ∧ (s.member 1).state = .joined ∧ s.Swept 1 4 ∧ (s.member 4).state = .admitting ∧ ¬s.Swept 2 1)
      ∧ (let s := holds three 1 leaseB
         s.lease? 1 = some leaseB ∧ ((s.cascade 1).member leaseB.source).state = .lost ∧ leaseB.mark = none ∧ leaseB.active.placement ≠ none
           ∧ hasListener leaseB.latest.listeners 3 = true)
      ∧ (let l := lease 9 1 .down ⟨.w8, 1, 0, none⟩
         (holds three 1 l).lease? 1 = some l ∧ l.active.placement = none ∧ l.sealed = none ∧ l.staged = none)
      ∧ ((framed three 9 none).setStage (.notifying telling)).publisher.stage.set? = some telling
      ∧ ((framed three 9 none).setStage (.switching telling 12)).publisher.stage = .switching telling 12
      ∧ three.publisher.stage.set? = none ∧ three.lease? 5 = none := by
  refine ⟨by decide, by decide, ⟨⟨by decide, Or.inl (by decide +kernel)⟩, by decide +kernel, ⟨by decide, Or.inr (by decide +kernel)⟩,
    by decide +kernel, fun h => absurd h.1 (by decide)⟩, by decide +kernel, by decide +kernel, rfl, rfl, rfl, by decide +kernel⟩

theorem witness_LostPositionsAreReleased :
    (let s := stands State.reset 15 .lost
     (s.member 15).state = .lost ∧ (∀ i, s.lease? i = none) ∧ (15 : Position) ≠ 0)
    ∧ (let s := stands State.reset 3 .lost
       (s.member 3).state = .lost ∧ (s.releaseLost.member (3 + 1)).state = .vacant)
    ∧ ((holds (stands State.reset 3 .lost) 1 leaseB).lease? 1 = some leaseB ∧ hasListener leaseB.active.listeners 3 = true) := by
  decide +kernel

/-! ### Slots, placement and encodings -/

theorem sample_settled : sample.Settled := by
  refine ⟨rfl, rfl, ?_, rfl, fun h => by cases h⟩
  intro i l h he
  obtain ⟨-, rfl⟩ := (sample_lease? i l).mp h
  cases he

/-- The one lease of the sample, with its channel incomplete and complete, bound and not, and a bit outside its run. -/
theorem witness_DownRegionCarriesTheChannels :
    sample.Settled ∧ sample.chain.frame.downRegion = none ∧ sample.TableLawful ∧ sample.LayoutLawful
      ∧ (after .downRegionDrive sample).chain.frame.downRegion ≠ none
      ∧ sample.lease? 0 = some leaseS ∧ leaseS.direction = .down ∧ leaseS.source = 0 ∧ leaseS.active.placement = some 0
      ∧ 0 < leaseS.active.count ∧ leaseS.base = some 4 ∧ sample.localPort.input[4].complete = false
      ∧ (let t : State := { sample with localPort := { sample.localPort with input := sample.localPort.input.set 4 ⟨1, true⟩ } }
         t.localPort.input[4].complete = true)
      ∧ leaseA.base = none ∧ ¬(0 ≤ 439 ∧ 439 < 0 + leaseS.active.cost) :=
  ⟨sample_settled, rfl, sample_lawful.table, sample_lawful.layout, by decide +kernel, (sample_lease? _ _).mpr ⟨rfl, rfl⟩, rfl, rfl, rfl,
    by decide, rfl, by decide +kernel, by decide +kernel, rfl, by decide⟩

/-- Each kind of slot, at the first and at the last bits of the region, for a lease that is read, and one that is not. -/
theorem witness_UpSlotsAreRead :
    (drove (framed (alone { leaseP with expiry := none, base := some 31 }) 9 (some .idle))).AtUpRegion
      ∧ leaseP.direction = .up ∧ leaseP.active.placement = some 0 ∧ hasListener leaseP.active.listeners 0 = true
      ∧ (0 : Fin 8).val < leaseP.active.count ∧ (framed three 9 (some .idle)).chain.frame.slotsRead = []
      ∧ (let region := upRegion 0 0b1000000010000000000000000000000000
         region.getMsbD (0 + leaseP.active.width.bits) = true ∧ EvenOnes region 0 10)
      ∧ (let region := upRegion 430 0b1000000011000000000000000000000000
         region.getMsbD (430 + leaseP.active.width.bits) = true ∧ ¬EvenOnes region 430 10)
      ∧ (0 : BitVec 440).getMsbD leaseP.active.width.bits = false
      ∧ (31 : Channel).val + (0 : Fin 8).val < 32 ∧ leaseA.direction ≠ .up ∧ three.lease? 5 = none := by
  refine ⟨⟨drove_at _ (alone_settled _ rfl _ _), Or.inr (Or.inl rfl)⟩, rfl, rfl, by decide, by decide, rfl, ⟨by decide +kernel, ?_⟩,
    ⟨by decide +kernel, ?_⟩, by simp, by decide, by decide, by decide +kernel⟩
  · unfold EvenOnes; decide +kernel
  · unfold EvenOnes; decide +kernel

/-- The first period, the last of a channel, the last of the local frame, and one behind it. -/
theorem witness_LbckPeriodsMoveTheBits :
    sample.inFrame = true ∧ sample.localPort.periods = 32 * (0 : Channel).val + 0 ∧ 31 < 32
      ∧ ({ sample.localPort with periods := 1023 } : LocalPort).periods = 32 * (31 : Channel).val + 31
      ∧ 1024 ≤ ({ sample.localPort with periods := 1024 } : LocalPort).periods := by decide +kernel

/-- The sample's lease with one slot fewer bits over the same span. -/
theorem witness_ShrinkingKeepsTheOffset :
    sample.TableLawful ∧ sample.LayoutLawful ∧ sample.lease? 0 = some leaseS ∧ leaseS.state ≠ .going
      ∧ leaseS.latest.placement = some 0 ∧ (2 : Listeners) ≠ 0
      ∧ (⟨.w8, 1, 2, none⟩ : Configuration).cost ≤ leaseS.latest.cost
      ∧ (spanOf .down 0 leaseS.latest.listeners).1 ≤ (spanOf .down 0 2).1 ∧ (spanOf .down 0 2).2 ≤ (spanOf .down 0 leaseS.latest.listeners).2 :=
  ⟨sample_lawful.table, sample_lawful.layout, (sample_lease? _ _).mpr ⟨rfl, rfl⟩, by decide, rfl, by decide, by decide, by decide, by decide⟩

theorem witness_ResponseWordsRoundTrip :
    (⟨1, createPayload ⟨255, 1, .up, .w32, 8, true, true, 1023, 0, none⟩ 0, false⟩ : QueueEntry).operation = 1
      ∧ (⟨1, shapePayload ⟨127, 15⟩ .w32 8 0, false⟩ : QueueEntry).operation = 2
      ∧ (⟨1, streamPayload 255 0, false⟩ : QueueEntry).operation = 7
      ∧ wordSound (responseWordOf true true true 15 255 0) = true := by decide +kernel

/-! ### The laws -/

/-- For StepsKeepTheLayout, StepsKeepTheMembers, StepsKeepTheNames and StepsKeepThePublisher. -/
theorem witness_StepsKeepTheLaws :
    sample.Lawful ∧ step sample = .next (after .frameStart { sample with pending := [] }) := ⟨sample_lawful, rfl⟩

theorem witness_StepsKeepTheTable :
    sample.TableLawful ∧ step sample = .next (after .frameStart { sample with pending := [] }) := ⟨sample_lawful.table, rfl⟩

theorem witness_StepsKeepTheChannels :
    sample.ChannelsLawful ∧ step sample = .next (after .frameStart { sample with pending := [] }) := ⟨sample_lawful.channels, rfl⟩

theorem witness_HandlesNameOneLease :
    exec .retire (asks (alone bare) 5 (Handle.mk 0 0).bytes) = .next (after .retire (asks (alone bare) 5 (Handle.mk 0 0).bytes))
      ∧ Instr.retire ≠ .deviceReset ∧ (asks (alone bare) 5 (Handle.mk 0 0).bytes).lease? 0 = some bare
      ∧ (asks (alone bare) 5 (Handle.mk 0 0).bytes).lease? 1 = none
      ∧ (after .create (asks State.reset 1 (createParams asked))).lease? 0 ≠ none :=
  ⟨rfl, (fun h => by cases h), by decide +kernel, by decide +kernel, by decide +kernel⟩

/-- An item stands on lease 4, and a later lease of the entry raises over it. -/
theorem witness_AttentionIsKept :
    let s : State := { sample with attention := { sample.attention with leases := sample.attention.leases.set 4 (some ⟨7, 8⟩) } }
    s.AttentionLawful ∧ exec .frameStart s = .next (after .frameStart s) ∧ Instr.frameStart ≠ .deviceReset
      ∧ Instr.frameStart ≠ .fetchAttention ∧ s.attention.leases[(4 : LeaseIndex)] = some ⟨7, 8⟩ := by
  refine ⟨⟨?_, by decide⟩, rfl, (fun h => by cases h), (fun h => by cases h), by decide +kernel⟩
  have h : ∀ i : LeaseIndex, (sample.attention.leases.set 4 (some ⟨7, 8⟩))[i] = if i = 4 then some ⟨7, 8⟩ else none := by
    decide +kernel
  intro i it hi
  have : (sample.attention.leases.set 4 (some ⟨7, 8⟩))[i] = some it := hi
  rw [h] at this
  split at this
  · cases this; decide
  · cases this

end Sys2Proof.Tests
end

section
/-! PROOFS. What requests share: the fields of a payload, what the readers make of what the asker wrote, how a
taken request is answered, and the lease that a handle names. -/

namespace Sys2Proof.Machine

/-! ## Fields of a concatenation -/

theorem fieldAt_all {n : Nat} (a : BitVec n) : fieldAt a 0 n = a := by
  simp [fieldAt]

theorem fieldAt_append_left {m n first len : Nat} (a : BitVec m) (b : BitVec n) (h : first + len ≤ m) :
    fieldAt (a ++ b) first len = fieldAt a first len := by
  unfold fieldAt
  rw [BitVec.extractLsb'_append_eq_of_le (by omega)]
  congr 1
  omega

theorem fieldAt_append_right {m n first len : Nat} (a : BitVec m) (b : BitVec n) (h : m ≤ first) (hl : first + len ≤ m + n) :
    fieldAt (a ++ b) first len = fieldAt b (first - m) len := by
  unfold fieldAt
  rw [BitVec.extractLsb'_append_eq_of_add_le (by omega)]
  congr 1
  omega

/-! ## What the host wrote is what the Request Engine reads (R190) -/

@[simp] theorem readHandle_bytes (h : Handle) :
    readHandle (BitVec.ofNat 8 h.index.val) (h.generation.zeroExtend 8) = some h := by
  have hi : h.index.val < 128 := h.index.isLt
  have hg : h.generation.toNat < 16 := h.generation.isLt
  have hi' : h.index.val % 256 = h.index.val := by omega
  have hg' : h.generation.toNat % 256 = h.generation.toNat := by omega
  simp [readHandle, hi', hg', hi, hg]

@[simp] theorem readRights_rightsByte (listenOpen shapeOpen : Bool) :
    readRights (rightsByte listenOpen shapeOpen) = some (listenOpen, shapeOpen) := by
  revert listenOpen shapeOpen; decide

@[simp] theorem readBase_baseByte (base : Option Channel) : readBase (baseByte base) = some base := by
  revert base; decide

theorem readSetRights_of_bytes (h : Handle) (listenOpen shapeOpen : Bool) :
    readSetRights (h.bytes ++ [rightsByte listenOpen shapeOpen]) = some (h, listenOpen, shapeOpen) := by
  simp [Handle.bytes, readSetRights]

theorem readBindLocal_of_bytes (h : Handle) (base : Option Channel) :
    readBindLocal (h.bytes ++ [baseByte base]) = some (h, base) := by
  simp [Handle.bytes, readBindLocal]

theorem readSetPublishing_code (m : PublishingMode) (w : Byte) : readSetPublishing [m.code, w] = some (m, w) := by
  cases m <;> rfl

/-! ## What a member wrote is what the Request Engine reads (R188) -/

@[simp] theorem Handle.fieldAt_index (h : Handle) : (fieldAt h.bits 0 7).toFin = h.index := by
  unfold Handle.bits
  rw [fieldAt_append_left _ _ (by omega), fieldAt_all]
  exact Fin.ext (by simp)

@[simp] theorem Handle.fieldAt_generation (h : Handle) : fieldAt h.bits 7 4 = h.generation := by
  unfold Handle.bits
  rw [fieldAt_append_right _ _ (by omega) (by omega), fieldAt_all]

theorem Width.ofCode_code (w : Width) : Width.ofCode w.code.toNat = some w := by
  cases w <;> rfl

theorem handlePayload_operation (op : BitVec 3) (h : Handle) (unread : BitVec 26) (p : Position) (o : Bool) :
    (⟨p, handlePayload op h unread, o⟩ : QueueEntry).operation = op := by
  unfold QueueEntry.operation handlePayload
  rw [fieldAt_append_left _ _ (by omega), fieldAt_append_left _ _ (by omega), fieldAt_all]

theorem handlePayload_handle (op : BitVec 3) (h : Handle) (unread : BitVec 26) (p : Position) (o : Bool) :
    (⟨p, handlePayload op h unread, o⟩ : QueueEntry).handle = h := by
  unfold QueueEntry.handle handlePayload
  rw [fieldAt_append_left _ _ (by omega), fieldAt_append_right _ _ (by omega) (by omega),
    fieldAt_append_left _ _ (by omega), fieldAt_append_right _ _ (by omega) (by omega)]
  simp

theorem shapePayload_operation (h : Handle) (w : Width) (n : Nat) (unread : BitVec 20) (p : Position) (o : Bool) :
    (⟨p, shapePayload h w n unread, o⟩ : QueueEntry).operation = 2 := by
  unfold QueueEntry.operation shapePayload
  rw [fieldAt_append_left _ _ (by omega), fieldAt_append_left _ _ (by omega), fieldAt_append_left _ _ (by omega),
    fieldAt_append_left _ _ (by omega), fieldAt_all]

theorem shapePayload_handle (h : Handle) (w : Width) (n : Nat) (unread : BitVec 20) (p : Position) (o : Bool) :
    (⟨p, shapePayload h w n unread, o⟩ : QueueEntry).handle = h := by
  unfold QueueEntry.handle shapePayload
  rw [fieldAt_append_left _ _ (by omega), fieldAt_append_left _ _ (by omega), fieldAt_append_left _ _ (by omega),
    fieldAt_append_right _ _ (by omega) (by omega), fieldAt_append_left _ _ (by omega),
    fieldAt_append_left _ _ (by omega), fieldAt_append_left _ _ (by omega), fieldAt_append_right _ _ (by omega) (by omega)]
  simp

theorem shapePayload_shape (h : Handle) (w : Width) (n : Nat) (unread : BitVec 20) (p : Position) (o : Bool) :
    (⟨p, shapePayload h w n unread, o⟩ : QueueEntry).shape = some (w, countOf (countBits n)) := by
  have hw : fieldAt (shapePayload h w n unread) 14 3 = w.code := by
    unfold shapePayload
    rw [fieldAt_append_left _ _ (by omega), fieldAt_append_left _ _ (by omega),
      fieldAt_append_right _ _ (by omega) (by omega), fieldAt_all]
  have hn : fieldAt (shapePayload h w n unread) 17 3 = countBits n := by
    unfold shapePayload
    rw [fieldAt_append_left _ _ (by omega), fieldAt_append_right _ _ (by omega) (by omega), fieldAt_all]
  simp [QueueEntry.shape, hw, hn, Width.ofCode_code]

/-! ## How a request is answered -/

/-- A waiting request that passed every step with DONE is answered DONE with the result (R69, R177). -/
theorem State.takeHost_done {s t : State} {c tag : Byte} {ps res : List Byte} (h : s.HostAsks c tag ps) {is : Byte → Bool}
    (hc : is c = true) {meaning : State → List Byte → Except Status HostAct}
    (ha : meaning s ps = .ok ⟨.done, t, res⟩) : s.takeHost is meaning = t.hostAnswered c tag ps .done res := by
  rw [State.takeHost_ok h hc ha, State.answerHost_eq]
  rfl

theorem State.takeHost_refused {s : State} {c tag : Byte} {ps : List Byte} (h : s.HostAsks c tag ps) {is : Byte → Bool}
    (hc : is c = true) {meaning : State → List Byte → Except Status HostAct} {st : Status}
    (ha : meaning s ps = .error st) : s.takeHost is meaning = s.hostAnswered c tag ps st [] := by
  rw [State.takeHost_error h hc ha, State.answerHost_eq, ite_self]

/-- All that the taking of a host request can do. -/
theorem State.takeHost_cases (s : State) (is : Byte → Bool) (meaning : State → List Byte → Except Status HostAct) :
    s.takeHost is meaning = s
    ∨ (∃ r st, s.takeHost is meaning = s.answerHost r st [])
    ∨ ∃ r a, meaning s r.params = .ok a ∧ s.takeHost is meaning = a.state.answerHost r a.status a.result := by
  unfold State.takeHost
  split
  · exact .inl rfl
  · next r _ =>
    split
    · split
      · next a ha => exact .inr (.inr ⟨r, a, ha, rfl⟩)
      · next st _ => exact .inr (.inl ⟨r, st, rfl⟩)
    · exact .inl rfl

/-- After the host's turn the request at the head of the queue is the one that the engine may take (R44). -/
theorem State.hostAnswered_memberAsks (s : State) (c tag : Byte) (ps : List Byte) (st : Status) (res : List Byte)
    {e : QueueEntry} {rest : List QueueEntry} (hq : s.engine.queue = e :: rest) :
    (s.hostAnswered c tag ps st res).MemberAsks e rest :=
  ⟨by simp [hq], .inr rfl⟩

theorem State.pend_answer (s : State) (e : QueueEntry) (st : Status) (h : Handle) (r : BitVec 22) (hp : e.position ≠ 0) :
    ((s.pend e st h r).member e.position).answer = some ⟨e.operation, st, e.overrun, h, r⟩ :=
  congrArg Member.answer (State.member_setMember_self s hp _)

/-- A member's answer is DENIED exactly when its request was refused so, where no act has that status (R49). -/
theorem State.takeMember_denied_iff {s : State} {e : QueueEntry} {rest : List QueueEntry} (h : s.MemberAsks e rest)
    {op : BitVec 3} (ho : e.operation = op) (hp : e.position ≠ 0) {named : QueueEntry → Handle}
    {meaning : State → QueueEntry → Except Status MemberAct} {r : Except Status LeaseAct} {f : LeaseAct → BitVec 22}
    (hm : meaning { s with engine := { queue := rest, turn := .host } } e
      = State.memberLeaseAct { s with engine := { queue := rest, turn := .host } } r f)
    (hr : ∀ a, r = .ok a → a.status ≠ .denied) :
    ((s.takeMember op named meaning).member e.position).answer = some ⟨op, .denied, e.overrun, named e, 0⟩
      ↔ r = .error .denied := by
  cases r with
  | error st =>
    rw [State.takeMember_error h ho hm, State.pend_answer _ _ _ _ _ hp]
    simp [ho]
  | ok a =>
    rw [State.takeMember_ok h ho hm, State.pend_answer _ _ _ _ _ hp]
    simp [hr a rfl]

/-! ## The handle and the lease it names -/

theorem State.Names.handleOf {s : State} {h : Handle} {l : Lease} {st : LeaseState} (hn : s.Names h l st) :
    s.handleOf h.index = h := by
  obtain ⟨he, -⟩ := hn
  simp only [State.handleOf, he]

/-- A request that asks for a LIVE lease is GONE in the two other states (R48). -/
theorem State.target_gone {s : State} {h : Handle} {l : Lease} (hn : s.Names h l .retiring ∨ s.Names h l .going) :
    s.target h false false = .error .gone := by
  rcases hn with hn | hn <;> rw [State.target_names hn] <;> rfl

theorem State.target_live {s : State} {h : Handle} {l : Lease} (hn : s.Names h l .live) (a b : Bool) :
    s.target h a b = .ok l := State.target_names hn a b

/-- The act of a request that puts a lease into the entry that its handle names, answered DONE (R5). -/
theorem State.hostLeaseAct_put {s : State} {h : Handle} {l : Lease} {st : LeaseState} (hn : s.Names h l st) (l' : Lease) :
    s.hostLeaseAct (.ok ⟨h.index, s.leases[h.index].put l', .done, none⟩) (fun _ => [])
      = .ok ⟨.done, s.withLease h.index l', h.bytes⟩ := by
  simp only [State.hostLeaseAct, State.onEntry_put, hn.handleOf, List.append_nil]

end Sys2Proof.Machine
end

section
/-! PROOFS. The requests that take effect at once: what SET_RIGHTS, BIND_LOCAL and SET_PUBLISHING do (R60, R61, R65),
and the statements about them. -/

namespace Sys2Proof.Machine

/-! ## SET_RIGHTS (R60) -/

theorem exec_setRights (s : State) : exec .setRights s = .next (s.takeHost (· == 7) hostSetRights) := rfl
theorem exec_listen (s : State) : exec .listen s = .next (s.takeMember 3 QueueEntry.handle memberListen) := rfl
theorem exec_memberShape (s : State) :
    exec .memberShape s = .next (s.takeMember 2 QueueEntry.handle memberShape) := rfl

theorem hostSetRights_live {s : State} {h : Handle} {l : Lease} (hn : s.Names h l .live) (listenOpen shapeOpen : Bool) :
    hostSetRights s (h.bytes ++ [rightsByte listenOpen shapeOpen])
      = .ok ⟨.done, s.withLease h.index { l with listenOpen, shapeOpen }, h.bytes⟩ := by
  simp only [hostSetRights, readSetRights_of_bytes, State.setRightsLease, State.target_live hn, State.hostLeaseAct_put hn]

theorem hostSetRights_gone {s : State} {h : Handle} {l : Lease} (hn : s.Names h l .retiring ∨ s.Names h l .going)
    (listenOpen shapeOpen : Bool) :
    hostSetRights s (h.bytes ++ [rightsByte listenOpen shapeOpen]) = .error .gone := by
  simp only [hostSetRights, readSetRights_of_bytes, State.setRightsLease, State.target_gone hn, State.hostLeaseAct]

theorem State.withLease_names {s : State} {h : Handle} {l l' : Lease} {st : LeaseState} (hn : s.Names h l st) :
    (s.withLease h.index l').Names h l' l'.state := by
  obtain ⟨he, -⟩ := hn
  have hg : s.leases[h.index].generation = h.generation := by rw [he]
  exact ⟨by simpa using hg, rfl⟩

theorem State.hostAnswered_names {s : State} {h : Handle} {l : Lease} {st : LeaseState} (hn : s.Names h l st)
    (c tag : Byte) (ps : List Byte) (status : Status) (res : List Byte) :
    (s.hostAnswered c tag ps status res).Names h l st := hn

theorem adoptStatus_ne_denied (l : Lease) (c : Configuration) : adoptStatus l c ≠ .denied := by
  unfold adoptStatus
  split <;> decide

theorem State.channelCheck_ne_denied (s : State) (mine : LeaseIndex → Bool) (b n : Nat) :
    s.channelCheck mine b n ≠ .error .denied := by
  unfold State.channelCheck
  split
  · decide
  · split <;> simp

theorem State.shapeChannels_ne_denied (s : State) (i : LeaseIndex) (l : Lease) (c : Configuration) :
    s.shapeChannels i l c ≠ .error .denied := by
  unfold State.shapeChannels
  split
  · simp
  · exact s.channelCheck_ne_denied _ _ _

/-- The rights step is the only one of a SHAPE that answers DENIED (R49, R55). -/
theorem State.shapeLease_denied_iff {s : State} {h : Handle} {l : Lease} (hn : s.Names h l .live) (who : Position)
    (w : Width) (n : Nat) :
    s.shapeLease who h w n = .error .denied ↔ who ≠ 0 ∧ l.owner ≠ who ∧ l.shapeOpen = false := by
  unfold State.shapeLease
  simp only [State.target_live hn]
  split
  · next hr => simpa [and_assoc] using hr
  · next hr =>
    refine iff_of_false ?_ (by simpa [and_assoc] using hr)
    split
    · next st hst =>
      rintro ⟨⟩
      exact s.shapeChannels_ne_denied _ _ _ hst
    · split <;> simp

theorem State.shapeLease_ok_ne_denied {s : State} {who : Position} {h : Handle} {w : Width} {n : Nat} {a : LeaseAct}
    (ha : s.shapeLease who h w n = .ok a) : a.status ≠ .denied := by
  unfold State.shapeLease at ha
  dsimp only at ha
  repeat' split at ha
  all_goals cases ha
  exact adoptStatus_ne_denied _ _

/-- The rights step is the only one of a LISTEN that answers DENIED (R49, R56). -/
theorem State.listenLease_denied_iff {s : State} {h : Handle} {l : Lease} (hn : s.Names h l .live) (who p : Position) :
    s.listenLease who h p = .error .denied ↔ who ≠ 0 ∧ l.owner ≠ who ∧ l.listenOpen = false := by
  unfold State.listenLease
  simp only [State.target_live hn]
  split
  · next hr => simpa [and_assoc] using hr
  · next hr =>
    refine iff_of_false ?_ (by simpa [and_assoc] using hr)
    repeat' split
    all_goals simp

theorem State.listenLease_ok_ne_denied {s : State} {who : Position} {h : Handle} {p : Position} {a : LeaseAct}
    (ha : s.listenLease who h p = .ok a) : a.status ≠ .denied := by
  unfold State.listenLease at ha
  dsimp only at ha
  repeat' split at ha
  all_goals cases ha
  exact adoptStatus_ne_denied _ _

/-- A LISTEN that the members' turn comes to is DENIED exactly when the flag is closed to its sender (R49, R56). -/
theorem exec_listen_denied_iff {s : State} {h : Handle} {l : Lease} (hn : s.Names h l .live) {p : Position}
    {unread : BitVec 26} {overrun : Bool} {rest : List QueueEntry}
    (hm : s.MemberAsks ⟨p, handlePayload 3 h unread, overrun⟩ rest) (hp : p ≠ 0) (ho : l.owner ≠ p) :
    ∃ u, exec .listen s = .next u
      ∧ ((u.member p).answer = some ⟨3, .denied, overrun, h, 0⟩ ↔ l.listenOpen = false) := by
  refine ⟨_, exec_listen s, ?_⟩
  have ht : State.Names { s with engine := { queue := rest, turn := .host } } h l .live := hn
  have hd := State.takeMember_denied_iff hm (handlePayload_operation 3 h unread p overrun) hp
    (named := QueueEntry.handle) (meaning := memberListen) rfl (fun _ => State.listenLease_ok_ne_denied)
  rw [handlePayload_handle, State.listenLease_denied_iff ht] at hd
  simpa [hp, ho] using hd

theorem memberShape_of_payload (s : State) (h : Handle) (w : Width) (n : Nat) (unread : BitVec 20) (p : Position) (o : Bool) :
    memberShape s ⟨p, shapePayload h w n unread, o⟩
      = s.memberLeaseAct (s.shapeLease p h w (countOf (countBits n))) LeaseAct.memberOffset := by
  simp only [memberShape, shapePayload_shape, shapePayload_handle]

/-- The same of a SHAPE (R49, R55). -/
theorem exec_memberShape_denied_iff {s : State} {h : Handle} {l : Lease} (hn : s.Names h l .live) {p : Position}
    {w : Width} {n : Nat} {unread : BitVec 20} {overrun : Bool} {rest : List QueueEntry}
    (hm : s.MemberAsks ⟨p, shapePayload h w n unread, overrun⟩ rest) (hp : p ≠ 0) (ho : l.owner ≠ p) :
    ∃ u, exec .memberShape s = .next u
      ∧ ((u.member p).answer = some ⟨2, .denied, overrun, h, 0⟩ ↔ l.shapeOpen = false) := by
  refine ⟨_, exec_memberShape s, ?_⟩
  have ht : State.Names { s with engine := { queue := rest, turn := .host } } h l .live := hn
  have hd := State.takeMember_denied_iff hm (shapePayload_operation h w n unread p overrun) hp
    (named := QueueEntry.handle) (memberShape_of_payload _ h w n unread p overrun) (fun _ => State.shapeLease_ok_ne_denied)
  rw [shapePayload_handle, State.shapeLease_denied_iff ht] at hd
  simpa [hp, ho] using hd

/-- Settles O22: the answered state has the new flags in the lease, and the rights steps of LISTEN and SHAPE read
them there, whenever the request was queued. -/
theorem setRightsReplacesBothFlags : Obligations.SetRightsReplacesBothFlags := by
  unfold Obligations.SetRightsReplacesBothFlags
  intro s h l tag listenOpen shapeOpen hask
  refine ⟨fun hn => ?_, fun hn => ?_⟩
  · have hset : exec .setRights s = .next ((s.withLease h.index { l with listenOpen, shapeOpen }).hostAnswered 7 tag
        (h.bytes ++ [rightsByte listenOpen shapeOpen]) .done h.bytes) := by
      rw [exec_setRights, State.takeHost_done hask rfl (hostSetRights_live hn listenOpen shapeOpen)]
    refine ⟨hset, fun t p ht hp ho => ?_⟩
    obtain rfl := Host.Outcome.next.inj (hset.symm.trans ht)
    obtain ⟨-, hlive⟩ := id hn
    have hn' := hlive ▸ State.withLease_names (l' := { l with listenOpen, shapeOpen }) hn
    have ha := State.hostAnswered_names hn' 7 tag (h.bytes ++ [rightsByte listenOpen shapeOpen]) .done h.bytes
    exact ⟨fun unread overrun rest hq => exec_listen_denied_iff ha (State.hostAnswered_memberAsks _ _ _ _ _ _ hq) hp ho,
      fun w n unread overrun rest hq => exec_memberShape_denied_iff ha (State.hostAnswered_memberAsks _ _ _ _ _ _ hq) hp ho⟩
  · rw [exec_setRights, State.takeHost_refused hask rfl (hostSetRights_gone hn listenOpen shapeOpen)]

/-! ## BIND_LOCAL (R61) -/

theorem exec_bindLocal (s : State) : exec .bindLocal s = .next (s.takeHost (· == 8) hostBindLocal) := rfl

theorem bindable_iff {d : Direction} {source : Position} {latest : Listeners} :
    bindable d source latest = true ↔ (d = .down ∧ source = 0) ∨ (d = .up ∧ hasListener latest 0) := by
  cases d <;> simp [bindable]

/-! ### The channel check of a lease that is there -/

theorem State.channelCheck_outside {s : State} {mine : LeaseIndex → Bool} {b n : Nat} (h : 32 < b + n) :
    s.channelCheck mine b n = .error .invalid := by
  simp [State.channelCheck, h]

theorem State.channelCheck_free {s : State} {i : LeaseIndex} {b : Channel} {n : Nat} (h : s.ChannelsFree (some i) b n) :
    s.channelCheck (fun j => j == i) b.val n = .ok () := by
  obtain ⟨hin, hfree⟩ := h
  have hall : ((List.range n).all fun k => (s.channelMap (b.val + k)).all fun j => j == i) = true := by
    simp only [List.all_eq_true, List.mem_range, Option.all_eq_true, beq_iff_eq]
    exact fun k hk j hj => Option.some.inj (State.channelMap_free (hfree k hk) j hj)
  simp [State.channelCheck, hall, show ¬32 < b.val + n by omega]

/-- The map shows the lowest lease with the channel; that it is the only one is the law (R11). -/
theorem State.channelCheck_reserved {s : State} {i : LeaseIndex} {b : Channel} {n : Nat} (hl : s.ChannelsLawful)
    (hin : b.val + n ≤ 32) (h : ¬s.ChannelsFree (some i) b n) :
    s.channelCheck (fun j => j == i) b.val n = .error .inUse := by
  have hall : ((List.range n).all fun k => (s.channelMap (b.val + k)).all fun j => j == i) = false := by
    refine Bool.eq_false_iff.2 fun hall => h ⟨hin, fun k hk => ?_⟩
    simp only [List.all_eq_true, List.mem_range, Option.all_eq_true, beq_iff_eq] at hall
    exact State.channelMap_all (fun j hj => congrArg some (hall k hk j hj)) hl
  simp [State.channelCheck, hall, show ¬32 < b.val + n by omega]

/-! ### What it does -/

theorem hostBindLocal_of_bytes (s : State) (h : Handle) (base : Option Channel) :
    hostBindLocal s (h.bytes ++ [baseByte base]) = s.hostLeaseAct (s.bindLease h base) fun _ => [] := by
  simp only [hostBindLocal, readBindLocal_of_bytes]

theorem hostBindLocal_none {s : State} {h : Handle} {l : Lease} (hn : s.Names h l .live) :
    hostBindLocal s (h.bytes ++ [baseByte none]) = .ok ⟨.done, s.withLease h.index { l with base := none }, h.bytes⟩ := by
  simp only [hostBindLocal_of_bytes, State.bindLease, State.target_live hn, State.hostLeaseAct_put hn]

/-- A lease that can be bound gets the base, or the refusal of the channel check (R61). -/
theorem State.bindLease_bindable {s : State} {h : Handle} {l : Lease} (hn : s.Names h l .live) (b : Channel)
    (hb : bindable l.direction l.source l.latest.listeners = true) :
    s.bindLease h (some b) = (s.channelCheck (fun j => j == h.index) b.val l.largestCount).map fun _ =>
      ⟨h.index, s.leases[h.index].put { l with base := some b }, .done, none⟩ := by
  simp only [State.bindLease, State.target_live hn, hb, Bool.not_true, Bool.false_eq_true, if_false]
  cases s.channelCheck (fun j => j == h.index) b.val l.largestCount <;> rfl

theorem State.bindLease_unbindable {s : State} {h : Handle} {l : Lease} (hn : s.Names h l .live) (b : Channel)
    (hb : bindable l.direction l.source l.latest.listeners = false) : s.bindLease h (some b) = .error .invalid := by
  simp only [State.bindLease, State.target_live hn, hb, Bool.not_false, if_true]

theorem hostBindLocal_free {s : State} {h : Handle} {l : Lease} (hn : s.Names h l .live) {b : Channel}
    (hb : bindable l.direction l.source l.latest.listeners = true) (hf : s.ChannelsFree (some h.index) b l.largestCount) :
    hostBindLocal s (h.bytes ++ [baseByte (some b)])
      = .ok ⟨.done, s.withLease h.index { l with base := some b }, h.bytes⟩ := by
  rw [hostBindLocal_of_bytes, State.bindLease_bindable hn b hb, State.channelCheck_free hf, Except.map,
    State.hostLeaseAct_put hn]

theorem hostBindLocal_invalid {s : State} {h : Handle} {l : Lease} (hn : s.Names h l .live) {b : Channel}
    (hi : bindable l.direction l.source l.latest.listeners = false ∨ 32 < b.val + l.largestCount) :
    hostBindLocal s (h.bytes ++ [baseByte (some b)]) = .error .invalid := by
  rw [hostBindLocal_of_bytes]
  cases hb : bindable l.direction l.source l.latest.listeners with
  | false => rw [State.bindLease_unbindable hn b hb]; rfl
  | true =>
    rw [State.bindLease_bindable hn b hb, State.channelCheck_outside (hi.resolve_left (by simp [hb]))]
    rfl

theorem hostBindLocal_inUse {s : State} {h : Handle} {l : Lease} (hn : s.Names h l .live) {b : Channel}
    (hl : s.ChannelsLawful) (hb : bindable l.direction l.source l.latest.listeners = true)
    (hin : b.val + l.largestCount ≤ 32) (hf : ¬s.ChannelsFree (some h.index) b l.largestCount) :
    hostBindLocal s (h.bytes ++ [baseByte (some b)]) = .error .inUse := by
  rw [hostBindLocal_of_bytes, State.bindLease_bindable hn b hb, State.channelCheck_reserved hl hin hf]
  rfl

theorem hostBindLocal_gone {s : State} {h : Handle} {l : Lease} (hn : s.Names h l .retiring ∨ s.Names h l .going)
    (base : Option Channel) : hostBindLocal s (h.bytes ++ [baseByte base]) = .error .gone := by
  rw [hostBindLocal_of_bytes, State.bindLease, State.target_gone hn]
  rfl

/-- Settles O23: each clause is one outcome of the check that the lease can be bound and of the channel check. -/
theorem bindLocalMovesTheReservation : Obligations.BindLocalMovesTheReservation := by
  unfold Obligations.BindLocalMovesTheReservation
  refine ⟨fun s h l tag hn => ?_, fun s h l tag base hn hask => ?_⟩
  · dsimp only
    rw [← bindable_iff, Bool.not_eq_true]
    refine ⟨fun hask => ?_, fun b hask => ⟨fun hb hf => ?_, fun hi => ?_, fun hl hb hin hf => ?_⟩⟩
    · exact congrArg _ (State.takeHost_done hask rfl (hostBindLocal_none hn))
    · exact congrArg _ (State.takeHost_done hask rfl (hostBindLocal_free hn hb hf))
    · exact congrArg _ (State.takeHost_refused hask rfl (hostBindLocal_invalid hn hi))
    · exact congrArg _ (State.takeHost_refused hask rfl (hostBindLocal_inUse hn hl hb hin hf))
  · rw [exec_bindLocal, State.takeHost_refused hask rfl (hostBindLocal_gone hn base)]

/-! ## SET_PUBLISHING (R65) -/

theorem exec_setPublishing (s : State) :
    exec .setPublishing s = .next (s.takeHost (· == 13) hostSetPublishing) := rfl
theorem exec_chainStop (s : State) : exec .chainStop s = .next (s.takeHost (· == 18) hostChainStop) := rfl
theorem exec_deviceReset (s : State) : exec .deviceReset s = execDeviceReset s := rfl

theorem Lease.state_retiring_iff {l : Lease} : l.state = .retiring ↔ ∃ cause, l.mark = some ⟨cause, .staged⟩ := by
  unfold Lease.state
  rcases l.mark with _ | ⟨cause, stage⟩
  · simp
  · cases stage <;> simp

theorem State.anyStaged_iff {s : State} : s.anyStaged = true ↔ s.SomethingStaged := by
  simp only [State.anyStaged, State.SomethingStaged, allLeases, List.any_eq_true, List.mem_finRange, true_and, any_iff,
    Lease.hasStaged, Bool.or_eq_true, beq_iff_eq, Lease.state_retiring_iff, Option.isSome_iff_ne_none]

/-- The stage of the publisher under a new mode and window (R65, R80). -/
def State.stageUnder (s : State) (m : PublishingMode) (w : Byte) : PublisherStage :=
  match s.publisher.stage with
  | .idle =>
    if m = .auto ∧ s.anyStaged = true ∧ s.chain.state = .running then .batching (sealFrameFrom s.chain.counter w)
    else .idle
  | .batching f => if m = .manual then .idle else .batching f
  | st => st

theorem State.setPublishing_eq (s : State) (m : PublishingMode) (w : Byte) :
    s.setPublishing m w = { s with publisher := ⟨m, w, s.publisher.epoch, s.stageUnder m w⟩ } := by
  have hany (p : Publisher) : ({ s with publisher := p } : State).anyStaged = s.anyStaged := rfl
  unfold State.setPublishing State.stageUnder
  cases hs : s.publisher.stage with
  | idle =>
    dsimp only
    rw [hany]
    by_cases ha : s.anyStaged = true
    · by_cases hr : m = .auto ∧ s.chain.state = .running <;> simp [ha, hr, hs, State.noteStaged]
    · simp [ha, hs]
  | batching f => cases m <;> simp [State.setStage, hs]
  | notifying set => simp [hs]
  | switching set f => simp [hs]

theorem State.stageUnder_opens {s : State} {m : PublishingMode} (h : s.publisher.stage = .idle)
    (hc : m = .auto ∧ s.SomethingStaged ∧ s.chain.state = .running) (w : Byte) :
    s.stageUnder m w = .batching (s.chain.counter + w.zeroExtend 32 + 1) := by
  rw [← State.anyStaged_iff] at hc
  simp only [State.stageUnder, h, if_pos hc, sealFrameFrom]

theorem State.stageUnder_idle {s : State} {m : PublishingMode} (h : s.publisher.stage = .idle)
    (hc : ¬(m = .auto ∧ s.SomethingStaged ∧ s.chain.state = .running)) (w : Byte) : s.stageUnder m w = .idle := by
  rw [← State.anyStaged_iff] at hc
  simp only [State.stageUnder, h, if_neg hc]

theorem State.stageUnder_batching {s : State} {f : FrameNumber} (h : s.publisher.stage = .batching f)
    (m : PublishingMode) (w : Byte) : s.stageUnder m w = if m = .manual then .idle else .batching f := by
  simp only [State.stageUnder, h]

/-- A set in flight is not touched (R80). -/
theorem State.stageUnder_inFlight {s : State} (h : s.publisher.stage.set? ≠ none) (m : PublishingMode) (w : Byte) :
    s.stageUnder m w = s.publisher.stage := by
  unfold State.stageUnder
  cases hs : s.publisher.stage with
  | idle => exact absurd (by rw [hs]; rfl) h
  | batching f => exact absurd (by rw [hs]; rfl) h
  | notifying set => rfl
  | switching set f => rfl

theorem State.onEveryEntry_mode_window (s : State) (f : LeaseIndex → Entry → EntryEvent) :
    (s.onEveryEntry f).publisher.mode = s.publisher.mode ∧ (s.onEveryEntry f).publisher.window = s.publisher.window := by
  unfold State.onEveryEntry State.noteStaged
  dsimp only
  repeat' split
  all_goals exact ⟨rfl, rfl⟩

theorem exec_chainStop_mode_window {s t : State} (h : exec .chainStop s = .next t) :
    t.publisher.mode = s.publisher.mode ∧ t.publisher.window = s.publisher.window := by
  obtain rfl := Host.Outcome.next.inj ((exec_chainStop s).symm.trans h)
  rcases s.takeHost_cases (· == 18) hostChainStop with h | ⟨r, st, h⟩ | ⟨r, a, ha, h⟩
  · rw [h]; exact ⟨rfl, rfl⟩
  · rw [h]; exact ⟨rfl, rfl⟩
  · rw [h]
    unfold hostChainStop at ha
    split at ha
    · cases ha
    · cases ha
      dsimp only
      split
      · exact s.onEveryEntry_mode_window _
      · exact ⟨rfl, rfl⟩

theorem hostSetPublishing_code (s : State) (m : PublishingMode) (w : Byte) :
    hostSetPublishing s [m.code, w]
      = .ok ⟨.done, { s with publisher := ⟨m, w, s.publisher.epoch, s.stageUnder m w⟩ }, []⟩ := by
  simp only [hostSetPublishing, readSetPublishing_code, State.setPublishing_eq]

/-- Settles O29: the stage is the one that `State.stageUnder` gives, case by case of the publisher's stage. -/
theorem setPublishingRecordsModeAndWindow : Obligations.SetPublishingRecordsModeAndWindow := by
  unfold Obligations.SetPublishingRecordsModeAndWindow
  refine ⟨fun s tag m w hask => ?_, fun s t => exec_chainStop_mode_window, fun s t h => ?_⟩
  · refine ⟨s.stageUnder m w, ?_, fun hs => ⟨fun hc => ?_, fun hc => ?_⟩, fun f hs => ⟨fun hm => ?_, fun hm => ?_⟩,
      fun hs => State.stageUnder_inFlight hs m w⟩
    · rw [exec_setPublishing, State.takeHost_done hask rfl (hostSetPublishing_code s m w)]
    · exact State.stageUnder_opens hs hc w
    · exact State.stageUnder_idle hs hc w
    · rw [State.stageUnder_batching hs, if_pos hm]
    · rw [State.stageUnder_batching hs, if_neg (by simp [hm])]
  · obtain rfl := Host.Outcome.next.inj ((exec_deviceReset s).symm.trans h)
    exact ⟨rfl, rfl⟩

end Sys2Proof.Machine
end

section
/-! PROOFS. How a member's request on a lease is answered: the state the answer leaves, for a refused request and for
an act that puts a lease into the entry that the handle names. -/

namespace Sys2Proof.Machine

/-- The answer replaces the whole of the engine, so nothing is left of an engine written before it. -/
theorem State.memberAnswered_setEngine (s : State) (g : RequestEngine) (e : QueueEntry) (rest : List QueueEntry)
    (op : BitVec 3) (st : Status) (h : Handle) (r : BitVec 22) :
    ({ s with engine := g } : State).memberAnswered e rest op st h r = s.memberAnswered e rest op st h r := by
  unfold State.memberAnswered State.setMember
  split <;> rfl

/-- A member request that failed a step is answered with the status and changes nothing else (R45). -/
theorem State.takeMember_refused {s : State} {e : QueueEntry} {rest : List QueueEntry} (h : s.MemberAsks e rest)
    {op : BitVec 3} (ho : e.operation = op) {named : QueueEntry → Handle}
    {meaning : State → QueueEntry → Except Status MemberAct} {st : Status}
    (ha : meaning { s with engine := { queue := rest, turn := .host } } e = .error st) :
    s.takeMember op named meaning = s.memberAnswered e rest op st (named e) 0 := by
  rw [State.takeMember_error h ho ha, State.pend_eq _ e rest st (named e) 0 rfl, State.memberAnswered_setEngine, ho]

/-- A raise and a change of the lease in the same entry may be taken in either order: the generation stays. -/
theorem State.raiseLease_withLease (s : State) (i : LeaseIndex) (r : Reasons) (l : Lease) :
    (s.raiseLease i r).withLease i l = (s.withLease i l).raiseLease i r := by
  simp [State.raiseLease, State.withLease]

/-- A member's act that puts a lease into the entry raises MEMBER_ACTION there (R71). -/
theorem State.onEntry_put_raising (s : State) (i : LeaseIndex) (l : Lease) (r : Reasons) :
    s.onEntry i ((s.leases[i].put l).raising r) = (s.withLease i l).raiseLease i r := by
  rw [State.onEntry_raising, ← State.raiseLease_withLease]
  exact State.onEntry_put (s.raiseLease i r) i l

/-- A member request whose act puts a lease into the entry that its handle names: the answer, and MEMBER_ACTION on the
lease's item (R45, R71). -/
theorem State.takeMember_put {s : State} {e : QueueEntry} {rest : List QueueEntry} (h : s.MemberAsks e rest)
    {op : BitVec 3} (ho : e.operation = op) {named : QueueEntry → Handle}
    {meaning : State → QueueEntry → Except Status MemberAct} {hd : Handle} {l l' : Lease} {state : LeaseState}
    (hn : s.Names hd l state) {st : Status} {o : Option Nat} {f : LeaseAct → BitVec 22}
    (ha : meaning { s with engine := { queue := rest, turn := .host } } e
      = State.memberLeaseAct { s with engine := { queue := rest, turn := .host } }
          (.ok ⟨hd.index, s.leases[hd.index].put l', st, o⟩) f) :
    s.takeMember op named meaning
      = ((s.withLease hd.index l').raiseLease hd.index Reason.memberAction).memberAnswered e rest op st hd
          (f ⟨hd.index, s.leases[hd.index].put l', st, o⟩) := by
  have hh : State.handleOf { s with engine := { queue := rest, turn := .host } } hd.index = hd := hn.handleOf
  rw [State.takeMember_ok h ho ha, State.onEntry_put_raising { s with engine := { queue := rest, turn := .host } },
    hh, State.pend_eq _ e rest _ _ _ rfl, ho]
  exact State.memberAnswered_setEngine ((s.withLease hd.index l').raiseLease hd.index Reason.memberAction) _ e rest op st hd _

end Sys2Proof.Machine
end

section
/-! PROOFS. RENEW, from the host and from a member (R59, R104, R105, R107), and the statement about its table. -/

namespace Sys2Proof.Machine

/-! ## What the host wrote is what the Request Engine reads (R190) -/

theorem fieldAt_bytes_append (v : BitVec 16) : fieldAt v 0 8 ++ fieldAt v 8 8 = v := by
  unfold fieldAt
  rw [BitVec.extractLsb'_append_extractLsb'_eq_extractLsb' (by omega)]
  exact BitVec.extractLsb'_eq_self

/-- A term is less than 1024, so it is never read as "keep". -/
theorem readNewTerm_of_term (t : Term) :
    readNewTerm (fieldAt (t.zeroExtend 16) 0 8) (fieldAt (t.zeroExtend 16) 8 8) = some (some t) := by
  have ht : t.toNat < 1024 := t.isLt
  have hv : (t.zeroExtend 16).toNat = t.toNat := by
    simpa using Nat.mod_eq_of_lt (show t.toNat < 65536 by omega)
  have hne : t.zeroExtend 16 ≠ 0xFFFF := by
    intro h
    rw [h, show (0xFFFF : BitVec 16).toNat = 65535 from rfl] at hv
    omega
  unfold readNewTerm readTerm
  rw [fieldAt_bytes_append, if_neg hne, hv, if_pos ht]
  simp

theorem readRenew_of_bytes (h : Handle) (new : Option Term) :
    readRenew (h.bytes ++ newTermBytes new) = some (h, new) := by
  cases new with
  | none => simp [Handle.bytes, newTermBytes, readRenew, readNewTerm]
  | some t => simp [Handle.bytes, newTermBytes, termBytes, twoBytes, readRenew, readNewTerm_of_term]

/-! ## The renewed lease (R104, R107) -/

theorem Lease.renewed_done {l : Lease} (hm : l.mark = none ∨ l.mark = some ⟨.expired, .staged⟩) (n : FrameNumber)
    (t : Term) : l.renewed n t = some { l with mark := none, term := t, expiry := expiryFrom n t } := by
  unfold Lease.renewed
  rcases hm with hm | hm <;> rw [hm]

theorem Lease.renewed_gone {l : Lease} {c : Cause} (hm : l.mark = some ⟨c, .staged⟩) (hc : c ≠ .expired) (n : FrameNumber)
    (t : Term) : l.renewed n t = none := by
  unfold Lease.renewed
  rw [hm]
  cases c with
  | expired => exact absurd rfl hc
  | requested p => rfl
  | orphaned => rfl

/-- The table of R104 has two outcomes: there is a renewed lease, and DONE puts it into the entry, or there is none. -/
theorem State.renewal_of_renewed {s : State} {i : LeaseIndex} {l : Lease} {t : Term} {out : Status → State → Prop}
    (done : ∀ l', l.renewed s.chain.counter t = some l' → out .done (s.withLease i l'))
    (gone : l.renewed s.chain.counter t = none → out .gone s) : s.Renewal i l t out :=
  ⟨fun hm => done _ (Lease.renewed_done hm _ t), fun _ hm => gone (Lease.renewed_gone hm nofun _ t),
    fun hm => gone (Lease.renewed_gone hm nofun _ t)⟩

/-! ## The steps of a RENEW -/

/-- A request that asks for a LIVE or RETIRING lease (R48). -/
theorem State.target_liveOrRetiring {s : State} {h : Handle} {l : Lease}
    (hn : s.Names h l .live ∨ s.Names h l .retiring) (inGoing : Bool) : s.target h true inGoing = .ok l := by
  rcases hn with hn | hn <;> exact State.target_names hn true inGoing

/-- A position that may renew, with a term that the lease may have, comes to the table of R104 (R49, R105). -/
theorem State.renewLease_eq {s : State} {h : Handle} {l : Lease} (hn : s.Names h l .live ∨ s.Names h l .retiring)
    {who : Position} (hw : who = 0 ∨ l.owner = who ∨ l.source = who) {new : Option Term} (ht : new ≠ some 0 ∨ l.owner = 0) :
    s.renewLease who h new
      = match l.renewed s.chain.counter (new.getD l.term) with
        | some l' => .ok ⟨h.index, s.leases[h.index].put l', .done, none⟩
        | none => .error .gone := by
  have hr : (!(who == 0 || l.owner == who || l.source == who)) = false := by
    simpa [imp_iff_not_or, or_assoc] using hw
  have hs : ¬(new = some 0 ∧ l.owner ≠ 0) := fun hc => ht.elim (absurd hc.1) hc.2
  simp only [State.renewLease, State.target_liveOrRetiring hn, hr, if_neg hs]
  rfl

/-- No member's lease gets a standing term (R105). -/
theorem State.renewLease_standing {s : State} {h : Handle} {l : Lease} (hn : s.Names h l .live ∨ s.Names h l .retiring)
    (ho : l.owner ≠ 0) : s.renewLease 0 h (some 0) = .error .invalid := by
  simp [State.renewLease, State.target_liveOrRetiring hn, ho]

theorem hostRenew_of_bytes (s : State) (h : Handle) (new : Option Term) :
    hostRenew s (h.bytes ++ newTermBytes new) = s.hostLeaseAct (s.renewLease 0 h new) fun _ => [] := by
  simp only [hostRenew, readRenew_of_bytes]

theorem memberRenew_of_payload (s : State) (h : Handle) (unread : BitVec 26) (p : Position) (o : Bool) :
    memberRenew s ⟨p, handlePayload 6 h unread, o⟩ = s.memberLeaseAct (s.renewLease p h none) LeaseAct.noResult := by
  simp only [memberRenew, handlePayload_handle]

theorem exec_renew (s : State) : exec .renew s = .next (s.takeHost (· == 6) hostRenew) := rfl
theorem exec_memberRenew (s : State) :
    exec .memberRenew s = .next (s.takeMember 6 QueueEntry.handle memberRenew) := rfl

/-! ## Its table (R104) -/

/-- The host's RENEW, with a term of its own or the kept one. -/
theorem exec_renew_renewal {s : State} {h : Handle} {l : Lease} (hn : s.Names h l .live ∨ s.Names h l .retiring)
    {tag : Byte} {new : Option Term} (hask : s.HostAsks 6 tag (h.bytes ++ newTermBytes new))
    (ht : new ≠ some 0 ∨ l.owner = 0) :
    s.Renewal h.index l (new.getD l.term) fun st t =>
      exec .renew s = .next
        (t.hostAnswered 6 tag (h.bytes ++ newTermBytes new) st (if st = .gone then [] else h.bytes)) := by
  obtain ⟨state, hnames⟩ : ∃ state, s.Names h l state := hn.elim (⟨_, ·⟩) (⟨_, ·⟩)
  have hact := hostRenew_of_bytes s h new
  rw [State.renewLease_eq hn (.inl rfl) ht] at hact
  refine State.renewal_of_renewed (fun l' hr => ?_) (fun hr => ?_) <;> rw [hr] at hact
  · exact congrArg _ (State.takeHost_done hask rfl (hact.trans (State.hostLeaseAct_put hnames l')))
  · exact congrArg _ (State.takeHost_refused hask rfl hact)

/-- The RENEW of a member that is the owner or the source: MEMBER_ACTION with DONE, nothing raised with GONE. -/
theorem exec_memberRenew_renewal {s : State} {h : Handle} {l : Lease} (hn : s.Names h l .live ∨ s.Names h l .retiring)
    {p : Position} (hp : l.owner = p ∨ l.source = p) {unread : BitVec 26} {overrun : Bool} {rest : List QueueEntry}
    (hask : s.MemberAsks ⟨p, handlePayload 6 h unread, overrun⟩ rest) :
    s.Renewal h.index l l.term fun st t =>
      exec .memberRenew s = .next
        ((if st = .gone then t else t.raiseLease h.index Reason.memberAction).memberAnswered
          ⟨p, handlePayload 6 h unread, overrun⟩ rest 6 st h 0) := by
  obtain ⟨state, hnames⟩ : ∃ state, s.Names h l state := hn.elim (⟨_, ·⟩) (⟨_, ·⟩)
  have hop := handlePayload_operation 6 h unread p overrun
  have hact := memberRenew_of_payload { s with engine := { queue := rest, turn := .host } } h unread p overrun
  rw [State.renewLease_eq (s := { s with engine := { queue := rest, turn := .host } }) hn (.inr hp) (.inl (by simp))] at hact
  refine State.renewal_of_renewed (fun l' hr => ?_) (fun hr => ?_) <;> simp only [Option.getD_none, hr] at hact
  · exact congrArg _ (State.takeMember_put hask hop hnames hact)
  · rw [exec_memberRenew, State.takeMember_refused hask hop hact, handlePayload_handle]
    rfl

/-- Settles O21: each row of R104 is one answer of `Lease.renewed`, which the host and a member come to alike. -/
theorem renewByItsTable : Obligations.RenewByItsTable := by
  unfold Obligations.RenewByItsTable
  intro s h l hn
  refine ⟨fun tag new hask => ⟨exec_renew_renewal hn hask, ?_⟩,
    fun p unread overrun rest hp hask => exec_memberRenew_renewal hn hp hask⟩
  rintro rfl ho
  have hact := hostRenew_of_bytes s h (some 0)
  rw [State.renewLease_standing hn ho] at hact
  exact congrArg _ (State.takeHost_refused hask rfl hact)

end Sys2Proof.Machine
end

section
/-! PROOFS. The port status byte and the ATTN line (R171, R192): what each flag reads, where the byte is shifted out,
and what a chain stop does to the attention set. -/

namespace Sys2Proof.Machine

/-! ## The flags (section 10.5) -/

theorem Slot.busy_iff {sl : Slot} : sl.busy = true ↔ sl ≠ .empty := by
  cases sl <;> simp [Slot.busy]

theorem Slot.ready_iff {sl : Slot} : sl.ready = true ↔ ∃ r a, sl = .answered r a := by
  cases sl <;> simp [Slot.ready]

theorem State.isRunning_iff {s : State} : s.isRunning = true ↔ s.chain.state = .running := by
  simp [State.isRunning]

/-- The number of items is the sum of one count per kind of item, and a count is 0 exactly when nothing is counted. -/
theorem AttentionSet.items_eq_zero_iff {a : AttentionSet} : a.items = 0 ↔ ¬a.HoldsAnItem := by
  have hmembers : (List.finRange 15).countP (fun k => a.members[k] != 0) = 0 ↔ ∀ k : Fin 15, a.members[k] = 0 := by
    simp [List.countP_eq_zero]
  have hleases :
      (List.finRange 128).countP (fun i => a.leases[i].isSome) = 0 ↔ ∀ i : LeaseIndex, a.leases[i] = none := by
    simp [List.countP_eq_zero]
  simp only [AttentionSet.items, AttentionSet.HoldsAnItem, Nat.add_eq_zero_iff, hmembers, hleases, not_or, not_exists,
    not_not, and_assoc, ite_eq_left_iff, one_ne_zero, imp_false]

theorem State.attn_iff {s : State} : s.attn = true ↔ s.attention.HoldsAnItem := by
  rw [State.attn, bne_iff_ne, ne_eq, AttentionSet.items_eq_zero_iff, not_not]

theorem AttentionSet.empty_not_holdsAnItem : ¬AttentionSet.empty.HoldsAnItem := by
  simp [AttentionSet.HoldsAnItem, AttentionSet.empty]

/-! ## The byte (R192) -/

/-- The flags of the status byte from bit 7 down to bit 2, and the two bits that read 0. -/
theorem State.statusByte_bits (s : State) :
    s.statusByte.getLsbD 7 = s.hostPort.slot.busy ∧ s.statusByte.getLsbD 6 = s.hostPort.slot.ready
      ∧ s.statusByte.getLsbD 5 = s.attn ∧ s.statusByte.getLsbD 4 = s.isRunning
      ∧ s.statusByte.getLsbD 3 = s.hostPort.checkError ∧ s.statusByte.getLsbD 2 = s.hostPort.slotFull
      ∧ s.statusByte.getLsbD 1 = false ∧ s.statusByte.getLsbD 0 = false := by
  simp only [State.statusByte, flagBit, BitVec.getLsbD_append, BitVec.getLsbD_ofBool]
  simp

/-- The manual's example: an answer to fetch on a running chain, nothing to attend to, and both sticky flags set. -/
theorem State.statusByte_example {s : State} {r : HostRequest} {a : List Byte} (hslot : s.hostPort.slot = .answered r a)
    (herror : s.hostPort.checkError = true) (hfull : s.hostPort.slotFull = true) (hrun : s.chain.state = .running)
    (hitems : ¬s.attention.HoldsAnItem) : s.statusByte = 0xDC := by
  have hattn : s.attn = false := Bool.eq_false_iff.mpr (mt State.attn_iff.mp hitems)
  simp only [State.statusByte, hslot, Slot.busy, Slot.ready, hattn, State.isRunning_iff.mpr hrun, herror, hfull]
  decide

theorem State.reset_attn : State.reset.attn = false :=
  Bool.eq_false_iff.mpr (mt State.attn_iff.mp AttentionSet.empty_not_holdsAnItem)

theorem State.reset_statusByte : State.reset.statusByte = 0 := by
  rw [State.statusByte, State.reset_attn]
  rfl

/-! ## The byte on HSDO (R173, R180) -/

theorem exec_statusRead (s : State) : exec .statusRead s = execStatusRead s := rfl
theorem exec_selectPeriodStart (s : State) : exec .selectPeriodStart s = .next s.fallSelect := rfl

theorem State.fallSelect_of_awake {s : State} (h : s.inReset = false) :
    s.fallSelect = s.setPort { s.hostPort with select := .low, hsdo := [s.statusByte] } := by
  rw [State.fallSelect, h]
  rfl

/-- The select period and what HSDO carried are no part of the status byte. -/
theorem State.statusByte_setPort (s : State) (select : Select) (hsdo : List Byte) :
    (s.setPort { s.hostPort with select, hsdo }).statusByte = s.statusByte := rfl

/-- A status read in a period of its own gives the byte at the fall of HCS_N and again behind its selector. -/
theorem exec_statusRead_hsdo {s t : State} (hreset : s.inReset = false) (hhigh : s.hostPort.select = .high)
    (h : exec .statusRead s = .next t) : t.hostPort.hsdo = [s.statusByte, s.statusByte] := by
  obtain rfl := Host.Outcome.next.inj ((exec_statusRead s).symm.trans h)
  have hdeaf : s.deaf = false := by simp [State.deaf, hreset, hhigh]
  have hopen : s.openSelect = s.setPort { s.hostPort with select := .low, hsdo := [s.statusByte] } := by
    rw [State.openSelect, hhigh]
    exact State.fallSelect_of_awake hreset
  simp [hdeaf, hopen, State.statusByte_setPort]

theorem exec_selectPeriodStart_hsdo {s t : State} (hreset : s.inReset = false)
    (h : exec .selectPeriodStart s = .next t) : t.hostPort.hsdo = [s.statusByte] := by
  obtain rfl := Host.Outcome.next.inj ((exec_selectPeriodStart s).symm.trans h)
  rw [State.fallSelect_of_awake hreset, State.setPort_hostPort]

/-! ## A chain stop raises and fetches nothing (R22, R171) -/

theorem stopEntry_raised (e : Entry) : (stopEntry e).raised = [] := by
  unfold stopEntry
  split
  · split <;> rfl
  · rfl

theorem State.onEveryEntry_attention_of_silent {s : State} {f : LeaseIndex → Entry → EntryEvent}
    (h : ∀ i e, (f i e).raised = []) : (s.onEveryEntry f).attention = s.attention := by
  have hitems : (Vector.ofFn fun i => s.itemAfter i (f i s.leases[i])) = s.attention.leases := by
    ext i hi
    simp [State.itemAfter, h, raiseItems]
  rw [State.onEveryEntry_attention, hitems]

theorem State.stopChain_attention (s : State) : s.stopChain.attention = s.attention :=
  State.onEveryEntry_attention_of_silent fun _ => stopEntry_raised

theorem hostChainStop_attention {s : State} {ps : List Byte} {a : HostAct} (h : hostChainStop s ps = .ok a) :
    a.state.attention = s.attention := by
  unfold hostChainStop at h
  split at h
  · cases h
  · cases h
    dsimp only
    split
    · exact s.stopChain_attention
    · rfl

theorem exec_chainStop_attention {s t : State} (h : exec .chainStop s = .next t) : t.attention = s.attention := by
  obtain rfl := Host.Outcome.next.inj ((exec_chainStop s).symm.trans h)
  rcases s.takeHost_cases (· == 18) hostChainStop with hnone | ⟨r, st, hrefused⟩ | ⟨r, a, ha, hdone⟩
  · rw [hnone]
  · rw [hrefused, State.answerHost_attention]
  · rw [hdone, State.answerHost_attention, hostChainStop_attention ha]

/-- Settles O8: every bit is the flag that `State.statusByte_bits` names, and a chain stop leaves the attention set
itself as it is. -/
theorem statusByteLayout : Obligations.StatusByteLayout := by
  unfold Obligations.StatusByteLayout
  refine ⟨fun s => ?_, State.reset_attn, State.reset_statusByte, fun t h => ?_⟩
  · obtain ⟨hbusy, hready, hattn, hrun, herror, hfull, hone, hzero⟩ := s.statusByte_bits
    exact ⟨hbusy ▸ Slot.busy_iff, hready ▸ Slot.ready_iff, hattn ▸ State.attn_iff, State.attn_iff,
      hrun ▸ State.isRunning_iff, herror, hfull, hone, hzero, fun r a => State.statusByte_example,
      fun hreset hhigh t => exec_statusRead_hsdo hreset hhigh,
      fun t h => by rw [State.attn, exec_chainStop_attention h, State.attn]⟩
  · rw [exec_selectPeriodStart_hsdo rfl h, State.reset_statusByte]

end Sys2Proof.Machine
end

section
/-! PROOFS. What a command can do to the device, said once: the acts that the requests on leases grant, and the
induction over the commands from which every law that the steps keep is derived. -/

namespace Sys2Proof.Machine

/-! ## What a granted request does to an entry -/

/-- A CREATE that passed every step finds this entry FREE and makes this event of it (R52, R53). -/
inductive State.Creates (s : State) (owner : Position) (f : CreateFields) (i : LeaseIndex) : EntryEvent → Prop
  | bare (free : s.LowestFree i) (allowed : s.CreateAllowed owner f) (formed : f.stream ≠ 0 ∧ 1 ≤ f.count ∧ f.count ≤ 8)
      (empty : f.listeners = 0) : s.Creates owner f i (s.leases[i].put (f.lease owner s.chain.counter))
  | listened (free : s.LowestFree i) (allowed : s.CreateAllowed owner f) (formed : f.stream ≠ 0 ∧ 1 ≤ f.count ∧ f.count ≤ 8)
      (some : f.listeners ≠ 0) (o : Nat) (fits : s.FitsAt i f.direction f.source f.config o) :
      s.Creates owner f i (s.leases[i].stage
        { f.lease owner s.chain.counter with staged := Option.some { f.config with placement := Option.some o } })

/-- The latest configuration with another width and count, before its placement (R55). -/
def Lease.reshaped (l : Lease) (w : Width) (n : Nat) : Configuration :=
  { l.latest with width := w, count := n, placement := none }

/-- The latest configuration with one more listener, before its placement (R56). -/
def Lease.extended (l : Lease) (p : Position) : Configuration :=
  { l.latest with listeners := withListener l.latest.listeners p, placement := none }

/-- The latest configuration with one listener less (R57). -/
def Lease.reduced (l : Lease) (p : Position) : Configuration :=
  l.latest.shrunkTo (withoutListener l.latest.listeners p)

/-- Everything that a request on the lease in an entry, once it passed every step, makes of the entry (R55 to R62). -/
inductive State.Grants (s : State) (i : LeaseIndex) (l : Lease) : EntryEvent → Prop
  | shape (w : Width) (n : Nat) (c : Configuration) (live : l.mark = none) (count : 1 ≤ n ∧ n ≤ 8)
      (channels : s.shapeChannels i l (l.reshaped w n) = .ok ())
      (placed : s.placeFor i l.direction l.source (l.reshaped w n) l.latest.placement = some c) :
      s.Grants i l (adoptEvent s.leases[i] l c)
  | listen (p : Position) (c : Configuration) (live : l.mark = none) (usable : s.usable p = true)
      (side : onSide l.direction l.source p = true) (new : hasListener l.latest.listeners p = false)
      (within : l.listensAt p = false → s.overListen p = false)
      (placed : s.placeFor i l.direction l.source (l.extended p) l.latest.placement = some c) :
      s.Grants i l (adoptEvent s.leases[i] l c)
  | drop (p : Position) (live : l.mark = none) (old : hasListener l.latest.listeners p = true) :
      s.Grants i l (adoptEvent s.leases[i] l (l.reduced p))
  | retire (who : Position) (live : l.mark = none) : s.Grants i l (retireLive s.leases[i] l (.requested who))
  | requested (who : Position) (expired : l.mark = some ⟨.expired, .staged⟩) :
      s.Grants i l (s.leases[i].put { l with mark := some ⟨.requested who, .staged⟩ })
  | renew (t : Term) (l' : Lease) (standing : t = 0 → l.owner = 0 ∨ l.term = 0)
      (renewed : l.renewed s.chain.counter t = some l') : s.Grants i l (s.leases[i].put l')
  | rights (listenOpen shapeOpen : Bool) (live : l.mark = none) :
      s.Grants i l (s.leases[i].put { l with listenOpen, shapeOpen })
  | bind (base : Option Channel) (live : l.mark = none)
      (channels : ∀ b, base = some b → s.channelCheck (fun j => j == i) b.val l.largestCount = .ok ()) :
      s.Grants i l (s.leases[i].put { l with base })
  | query : s.Grants i l (s.leases[i].put { l with heard := false, parityFaults := 0 })
  | nothing : s.Grants i l (.unchanged s.leases[i])

/-- The act is one that a request on the lease in its entry is granted. -/
def State.Granted (s : State) (a : LeaseAct) : Prop := ∃ l, s.lease? a.index = some l ∧ s.Grants a.index l a.event

/-- The act is one that a CREATE is granted. -/
def State.Created (s : State) (a : LeaseAct) : Prop := ∃ owner f, s.Creates owner f a.index a.event

/-! ### The steps that a granted request passed -/

theorem Lease.state_live_iff {l : Lease} : l.state = .live ↔ l.mark = none := by
  unfold Lease.state
  rcases l.mark with _ | ⟨cause, _ | _⟩ <;> simp

theorem Lease.state_going_iff {l : Lease} : l.state = .going ↔ ∃ cause, l.mark = some ⟨cause, .sealed⟩ := by
  unfold Lease.state
  rcases l.mark with _ | ⟨cause, _ | _⟩ <;> simp

/-- A request that neither a RETIRING nor a GOING lease accepts found a LIVE one. -/
theorem State.target_ok_live {s : State} {h : Handle} {l : Lease} (ht : s.target h false false = .ok l) :
    s.lease? h.index = some l ∧ l.mark = none := by
  have hl := State.lease?_of_entry (State.target_ok ht)
  refine ⟨hl, Lease.state_live_iff.1 ?_⟩
  simp only [State.target, hl] at ht
  split at ht
  · cases hs : l.state <;> simp [hs] at ht ⊢
  · cases ht

theorem State.target_ok_lease {s : State} {h : Handle} {a b : Bool} {l : Lease} (ht : s.target h a b = .ok l) :
    s.lease? h.index = some l := State.lease?_of_entry (State.target_ok ht)

theorem State.shapeLease_ok {s : State} {who : Position} {h : Handle} {w : Width} {n : Nat} {a : LeaseAct}
    (hn : 1 ≤ n ∧ n ≤ 8) (ha : s.shapeLease who h w n = .ok a) : s.Granted a := by
  unfold State.shapeLease at ha
  split at ha
  · cases ha
  · next l ht =>
    obtain ⟨hl, hm⟩ := State.target_ok_live ht
    dsimp only at ha
    repeat' split at ha
    all_goals cases ha
    next hch _ c hp => exact ⟨l, hl, .shape w n c hm hn hch hp⟩

theorem State.listenLease_ok {s : State} {who : Position} {h : Handle} {p : Position} {a : LeaseAct}
    (ha : s.listenLease who h p = .ok a) : s.Granted a := by
  unfold State.listenLease at ha
  split at ha
  · cases ha
  · next l ht =>
    obtain ⟨hl, hm⟩ := State.target_ok_live ht
    dsimp only at ha
    repeat' split at ha
    all_goals cases ha
    next _ hu hs hnew hlim _ c hp =>
      rw [Bool.or_eq_true, not_or] at hnew
      exact ⟨l, hl, .listen p c hm (by simpa using hu) (by simpa using hs) (Bool.eq_false_iff.2 hnew.2) (fun hla => by simpa [hla] using hlim) hp⟩

theorem State.dropLease_ok {s : State} {h : Handle} {p : Position} {a : LeaseAct}
    (ha : s.dropLease h p = .ok a) : s.Granted a := by
  unfold State.dropLease at ha
  split at ha
  · cases ha
  · next l ht =>
    obtain ⟨hl, hm⟩ := State.target_ok_live ht
    split at ha <;> cases ha
    next hp => exact ⟨l, hl, .drop p hm (by simpa using hp)⟩

theorem State.retireLease_ok {s : State} {who : Position} {h : Handle} {a : LeaseAct}
    (ha : s.retireLease who h = .ok a) : s.Granted a := by
  unfold State.retireLease at ha
  split at ha
  · cases ha
  · next l ht =>
    have hl := State.target_ok_lease ht
    split at ha <;> cases ha
    refine ⟨l, hl, ?_⟩
    dsimp only [retireRequest]
    split
    · next hm => exact .retire who hm
    · next hm => exact .requested who hm
    · exact .nothing

theorem State.renewLease_ok {s : State} {who : Position} {h : Handle} {t : Option Term} {a : LeaseAct}
    (ha : s.renewLease who h t = .ok a) : s.Granted a := by
  unfold State.renewLease at ha
  split at ha
  · cases ha
  · next l ht =>
    have hl := State.target_ok_lease ht
    repeat' split at ha
    all_goals cases ha
    next hst _ l' hr =>
      refine ⟨l, hl, .renew (t.getD l.term) l' (fun h0 => ?_) hr⟩
      cases t with
      | none => exact .inr h0
      | some t => exact .inl (by_contra fun ho => hst ⟨congrArg some h0, ho⟩)

theorem State.setRightsLease_ok {s : State} {h : Handle} {x y : Bool} {a : LeaseAct}
    (ha : s.setRightsLease h x y = .ok a) : s.Granted a := by
  unfold State.setRightsLease at ha
  split at ha <;> cases ha
  next l ht =>
    obtain ⟨hl, hm⟩ := State.target_ok_live ht
    exact ⟨l, hl, .rights x y hm⟩

theorem State.bindLease_ok {s : State} {h : Handle} {base : Option Channel} {a : LeaseAct}
    (ha : s.bindLease h base = .ok a) : s.Granted a := by
  unfold State.bindLease at ha
  split at ha
  · cases ha
  · next l ht =>
    obtain ⟨hl, hm⟩ := State.target_ok_live ht
    dsimp only at ha
    repeat' split at ha
    all_goals cases ha
    · exact ⟨l, hl, .bind none hm (by simp)⟩
    · next b _ _ hc => exact ⟨l, hl, .bind (some b) hm fun b' hb => Option.some.inj hb ▸ hc⟩

/-! ### CREATE: the checks of the meaning step (R50, R51, R157) -/

theorem State.channelFreeFor_none_iff {s : State} {c : Nat} : s.ChannelFreeFor none c ↔ s.channelMap c = none := by
  constructor
  · intro h
    cases hm : s.channelMap c with
    | none => rfl
    | some j => exact absurd (State.channelMap_free h j hm) (by simp)
  · intro h j l _ hj b hb hc
    unfold State.channelMap at h
    rw [List.find?_eq_none] at h
    exact h j (List.mem_finRange j) (by simpa [hj] using Lease.reservation_covers.2 ⟨b, hb, hc⟩)

/-- The channel check of a lease that is not there yet: every channel is free (R50, R61). -/
theorem State.channelCheck_new {s : State} {b : Channel} {n : Nat} :
    s.channelCheck (fun _ => false) b.val n
      = if 32 < b.val + n then .error .invalid else if ∀ k, k < n → s.channelMap (b.val + k) = none then .ok () else .error .inUse := by
  have hall : ((List.range n).all fun k => (s.channelMap (b.val + k)).all fun _ => false) = true
      ↔ ∀ k, k < n → s.channelMap (b.val + k) = none := by
    simp only [List.all_eq_true, List.mem_range]
    refine forall₂_congr fun k _ => ?_
    cases s.channelMap (b.val + k) <;> simp
  unfold State.channelCheck
  simp only [hall]

theorem State.channelsFree_none_iff {s : State} {b : Channel} {n : Nat} :
    s.ChannelsFree none b n ↔ s.channelCheck (fun _ => false) b.val n = .ok () := by
  rw [State.channelCheck_new]
  unfold State.ChannelsFree
  simp only [State.channelFreeFor_none_iff]
  split
  · exact iff_of_false (by omega) (by simp)
  · split <;> simp_all

theorem State.overSource_eq_false_iff {s : State} {p : Position} :
    s.overSource p = false ↔ (p ≠ 0 → s.sourceCount p + 1 ≤ s.sourceLimit p) := by
  simp [State.overSource]

theorem State.overListen_eq_false_iff {s : State} {p : Position} :
    s.overListen p = false ↔ (p ≠ 0 → s.listenCount p + 1 ≤ s.listenLimit p) := by
  simp [State.overListen]

/-- The positions of a CREATE are the head or JOINED (R50, first check). -/
def State.PositionsUsable (s : State) (f : CreateFields) : Prop :=
  (f.source = 0 ∨ s.joined f.source = true) ∧ ∀ p, hasListener f.listeners p = true → p = 0 ∨ s.joined p = true

/-- The source of a CREATE can send and its listeners are on the side of the direction (R50, second check). -/
def CreateFields.SidesRight (f : CreateFields) : Prop :=
  (f.direction = .up → f.source ≠ 0) ∧ ∀ p, hasListener f.listeners p = true → onSide f.direction f.source p = true

/-- The stream of a CREATE is not in the map (R50, third check). -/
def State.StreamUnused (s : State) (f : CreateFields) : Prop := ∀ i l, s.lease? i = some l → l.stream ≠ f.stream

/-- A lease of the kind can use the local port (R157). -/
def CreateFields.CanBind (f : CreateFields) : Prop :=
  (f.direction = .down ∧ f.source = 0) ∨ (f.direction = .up ∧ hasListener f.listeners 0 = true)

/-- The binding of a CREATE can be made (R50, fifth check; R157). -/
def State.BindingFree (s : State) (f : CreateFields) : Prop :=
  ∀ b, f.base = some b → f.CanBind ∧ s.ChannelsFree none b f.count

/-- A CREATE would exceed a limit of a member (R51). -/
def State.CreateExceeds (s : State) (f : CreateFields) : Prop :=
  (f.source ≠ 0 ∧ s.sourceLimit f.source < s.sourceCount f.source + 1)
    ∨ ∃ p, p ≠ 0 ∧ hasListener f.listeners p = true ∧ s.listenLimit p < s.listenCount p + 1

theorem State.positionsUsable_iff {s : State} {f : CreateFields} :
    (s.usable f.source && everyListener f.listeners s.usable) = true ↔ s.PositionsUsable f := by
  simp only [Bool.and_eq_true, State.usable_iff, everyListener_iff, State.PositionsUsable]

/-- The checks on sides hold exactly when the three tests of the model pass: a source on its own side is excluded. -/
theorem CreateFields.sidesRight_iff {f : CreateFields} : f.SidesRight
    ↔ ¬(f.direction = .up ∧ f.source = 0) ∧ everyListener f.listeners (onSide f.direction f.source) = true := by
  simp only [CreateFields.SidesRight, everyListener_iff, not_and, ne_eq]

theorem CreateFields.SidesRight.source {f : CreateFields} (h : f.SidesRight) : hasListener f.listeners f.source = false := by
  by_contra hs
  exact onSide_ne (h.2 _ (Bool.eq_true_of_not_eq_false hs)) rfl

theorem State.createChannels_ok_iff {s : State} {f : CreateFields} : s.createChannels f = .ok () ↔ s.BindingFree f := by
  unfold State.createChannels State.BindingFree
  cases f.base with
  | none => simp
  | some b =>
    simp only [Option.some.injEq, forall_eq', State.channelsFree_none_iff, CreateFields.CanBind, ← bindable_iff]
    split <;> simp_all

theorem State.not_exceeds_iff {s : State} {f : CreateFields} :
    (s.overSource f.source || !everyListener f.listeners fun p => !s.overListen p) = false ↔ ¬s.CreateExceeds f := by
  simp only [Bool.or_eq_false_iff, Bool.not_eq_false', everyListener_iff, Bool.not_eq_true', State.overSource_eq_false_iff,
    State.overListen_eq_false_iff, State.CreateExceeds, not_or, not_and, not_exists, not_lt]
  exact and_congr Iff.rfl (forall_congr' fun p => forall_comm)

/-- A CREATE is allowed when it passes the checks of R50 and R51, one after the other. -/
theorem State.createAllowed_iff {s : State} {owner : Position} {f : CreateFields} : s.CreateAllowed owner f
    ↔ s.PositionsUsable f ∧ f.SidesRight ∧ s.StreamUnused f ∧ s.BindingFree f ∧ (owner ≠ 0 → f.term ≠ 0)
      ∧ ¬s.CreateExceeds f := by
  constructor
  · rintro ⟨h1, h2, h3, h4, h5, h6, h7, h8, h9, h10⟩
    refine ⟨⟨h1, h2⟩, ⟨h3, h4⟩, h5, fun b hb => ⟨h6 b hb, h7 b hb⟩, h8, ?_⟩
    rintro (⟨h, h'⟩ | ⟨p, h, hp, h'⟩)
    · exact absurd (h9 h) (by omega)
    · exact absurd (h10 p hp h) (by omega)
  · rintro ⟨⟨h1, h2⟩, ⟨h3, h4⟩, h5, h6, h8, h9⟩
    simp only [State.CreateExceeds, not_or, not_and, not_exists, not_lt] at h9
    exact ⟨h1, h2, h3, h4, h5, fun b hb => (h6 b hb).1, fun b hb => (h6 b hb).2, h8, h9.1, fun p hp h => h9.2 p h hp⟩

/-- The capacity step is reached exactly by a CREATE that is allowed. -/
theorem State.createLease_of_allowed {s : State} {owner : Position} {f : CreateFields} (h : s.CreateAllowed owner f) :
    s.createLease owner f = s.createIn owner f := by
  obtain ⟨h1, h2, h3, h4, h5, h6⟩ := State.createAllowed_iff.1 h
  have hs := h2.source
  rw [CreateFields.sidesRight_iff] at h2
  have h5' : ¬(owner ≠ 0 ∧ f.term = 0) := fun hc => h5 hc.1 hc.2
  simp only [State.createLease, State.positionsUsable_iff.2 h1, h2.1, h2.2, hs, State.streamMap_eq_none.2 h3,
    State.createChannels_ok_iff.2 h4, h5', State.not_exceeds_iff.2 h6, Bool.not_true, Bool.false_eq_true, if_false,
    Option.isSome_none]

theorem State.createLease_ok {s : State} {owner : Position} {f : CreateFields} {a : LeaseAct}
    (ha : s.createLease owner f = .ok a) : s.CreateAllowed owner f := by
  unfold State.createLease at ha
  repeat' split at ha
  all_goals try cases ha
  next h1 h2 h3 _ h4 _ h5 h6 h7 =>
    rw [Bool.not_eq_true, Bool.not_eq_false'] at h1
    rw [Bool.not_eq_true, Bool.not_eq_false'] at h3
    rw [Bool.not_eq_true] at h7
    refine State.createAllowed_iff.2 ⟨State.positionsUsable_iff.1 h1, CreateFields.sidesRight_iff.2 ⟨h2, h3⟩,
      State.streamMap_eq_none.1 (by simpa using h4), State.createChannels_ok_iff.1 h5, fun ho ht => h6 ⟨ho, ht⟩,
      State.not_exceeds_iff.1 h7⟩

theorem State.createLease_created {s : State} {owner : Position} {f : CreateFields} {a : LeaseAct}
    (hf : f.stream ≠ 0 ∧ 1 ≤ f.count ∧ f.count ≤ 8) (ha : s.createLease owner f = .ok a) : s.Created a := by
  have hal := State.createLease_ok ha
  rw [State.createLease_of_allowed hal] at ha
  refine ⟨owner, f, ?_⟩
  unfold State.createIn at ha
  split at ha
  · cases ha
  · next i hi =>
    have hfree := State.lowestFree_some.1 hi
    split at ha
    · cases ha
    · next c hc =>
      dsimp only at ha
      split at ha
      · next h0 =>
        cases ha
        exact .bare hfree hal hf h0
      · next h0 =>
        cases ha
        rcases s.placeFor_cases i f.direction f.source f.config none hf.2.1 with ⟨h, -⟩ | ⟨-, o, ho, hp⟩ | ⟨-, h, -⟩
        · exact absurd h h0
        · rw [hc] at ho
          cases ho
          exact .listened hfree hal hf h0 o hp.1
        · rw [hc] at h
          cases h

/-! ## The induction over the commands -/

/-- The device without the request at the head of the queue, the turn given to the host (R43, R44). -/
def State.dequeued (s : State) (rest : List QueueEntry) : State := { s with engine := { queue := rest, turn := .host } }

/-- A transaction of the host port, or the fall of HCS_N. -/
def isPortCommand : Instr → Bool
  | .requestWrite _ _ | .answerRead _ | .statusRead | .unknownSelector _ | .selectPeriodStart => true
  | _ => false

/-- The command of a host request. -/
def servesHost : Instr → Bool
  | .create | .shape | .addListener | .dropListener | .retire | .renew | .setRights | .bindLocal | .query | .resolve | .repack
  | .publish | .setPublishing | .readMember | .setExpected | .setAdmission | .chainStart | .chainStop | .fetchAttention
  | .readStatus | .unknownCommand => true
  | _ => false

/-- The frame in progress is the switch frame of the set (R92). -/
def State.AppliesNow (s : State) (set : ChangeSet) : Prop :=
  s.inFrame = true ∧ s.publisher.stage = .switching set s.chain.counter

/-- A predicate is kept by every event of which the command is made. What each event finds when it is taken is said in
its field, and that the events of `c` are these is `Kept.exec`. -/
structure Kept (c : Instr) (P : State → Prop) : Prop where
  port          : isPortCommand c = true → ∀ s t, exec c s = .next t → t = s.setPort t.hostPort → P s → P t
  deviceReset   : c = .deviceReset → ∀ s t, exec c s = .next t → P s → P t
  resetEnd      : ∀ s, P s → P { s with inReset := false }
  answer        : servesHost c = true → ∀ s r st res, s.hostPort.slot = .waiting r → P s → P (s.answerHost r st res)
  grant         : ∀ s i l ev, s.lease? i = some l → s.Grants i l ev → P s → P (s.onEntry i ev)
  create        : c = .create → ∀ s owner f i ev, s.Creates owner f i ev → P s → P (s.onEntry i ev)
  repack        : ∀ s plan, s.chain.state = .running → s.publisher.stage = .idle → s.repackBlocked = false →
    s.repackPlan = some plan → movedCount plan ≠ 0 → P s → P (s.sealRepack plan)
  publish       : ∀ s, s.chain.state = .running → s.publisher.stage.set? = none → s.anyStaged = true → P s → P s.sealStaged
  setPublishing : ∀ s m w, P s → P (s.setPublishing m w)
  setExpected   : ∀ s p x, P s → P (s.setMember p { s.member p with expected := x })
  setAdmission  : ∀ s m, P s → P { s with members := { s.members with admission := m } }
  chainStart    : c = .chainStart → ∀ s rate limit lead, s.chain.state = .stopped → P s → P (s.startChain rate limit lead)
  chainStop     : c = .chainStop → ∀ s, s.chain.state = .running → P s → P s.stopChain
  fetch         : c = .fetchAttention → ∀ s, P s → P { s with attention := s.attention.fetch.1 }
  memberAnswer  : servesHost c = false → ∀ s e rest st h r, s.engine.queue = e :: rest → P s →
    P ((s.dequeued rest).pend e st h r)
  memberGrant   : servesHost c = false → ∀ s e rest i l ev st h r, s.engine.queue = e :: rest → s.lease? i = some l →
    (s.dequeued rest).Grants i l ev → P s →
    P (((s.dequeued rest).onEntry i (ev.raising Reason.memberAction)).pend e st h r)
  memberCreate  : c = .memberCreate → ∀ s e rest owner f i ev st h r, s.engine.queue = e :: rest →
    (s.dequeued rest).Creates owner f i ev → P s →
    P (((s.dequeued rest).onEntry i (ev.raising Reason.memberAction)).pend e st h r)
  application   : ∀ s set, s.AppliesNow set → P s → P (s.applySet set)
  expiry        : ∀ s i, s.inFrame = true → P s → P (s.onEntry i (expireEntry s.chain.counter s.leases[i]))
  expiries      : ∀ s, s.inFrame = true → P s → P (s.onEveryEntry fun _ e => expireEntry s.chain.counter e)
  windowEnd     : ∀ s, s.inFrame = true → s.publisher.stage = .batching s.chain.counter → P s → P s.endWindow
  choice        : ∀ s, s.inFrame = true → s.chain.frame.control = none → P s → P s.chooseMessage
  drive         : ∀ s r, s.inFrame = true → P s → P (s.setFrame { s.chain.frame with downRegion := some r })
  word          : ∀ s w, s.responseDue = true → P s → P (s.takeWord w)
  frameStart    : ∀ s, s.chain.state = .running → P s → P s.openFrame
  slot          : ∀ s i l k bits, s.lease? i = some l → s.inFrame = true → P s → P (s.takeSlot i l k bits)
  miss          : ∀ s p, s.awaits p = true → P s → P (s.takeMiss p)
  period        : ∀ s lsdi, s.inFrame = true → P s → P { s with localPort := s.localPort.period lsdi }

section
variable {c : Instr} {P : State → Prop} {s : State}

/-! ### Host requests -/

theorem Kept.takeHost (hk : Kept c P) (hc : servesHost c = true) {is : Byte → Bool} {meaning : State → List Byte → Except Status HostAct}
    (hm : ∀ ps a, meaning s ps = .ok a → a.state.hostPort = s.hostPort ∧ (P s → P a.state)) (hs : P s) :
    P (s.takeHost is meaning) := by
  unfold State.takeHost
  split
  · exact hs
  · next r hr =>
    have hw : s.hostPort.slot = .waiting r := by
      unfold State.hostRequest? at hr
      split at hr
      · next r' hslot =>
        split at hr
        · rw [hslot, Option.some.inj hr]
        · cases hr
      · cases hr
    split
    · split
      · next a ha =>
        obtain ⟨hp, ha⟩ := hm _ a ha
        exact hk.answer hc _ _ _ _ (hp ▸ hw) (ha hs)
      · exact hk.answer hc _ _ _ _ hw hs
    · exact hs

theorem Kept.hostLeaseAct {r : Except Status LeaseAct} {f : LeaseAct → List Byte} {a : HostAct}
    (ha : s.hostLeaseAct r f = .ok a) (hr : ∀ x, r = .ok x → P s → P (s.onEntry x.index x.event)) :
    a.state.hostPort = s.hostPort ∧ (P s → P a.state) := by
  unfold State.hostLeaseAct at ha
  split at ha <;> cases ha
  exact ⟨by simp, hr _ rfl⟩

theorem Kept.granted (hk : Kept c P) {a : LeaseAct} (ha : s.Granted a) (hs : P s) : P (s.onEntry a.index a.event) := by
  obtain ⟨l, hl, hg⟩ := ha
  exact hk.grant s _ l _ hl hg hs

theorem readCount_bounds {b : Byte} {n : Nat} (h : readCount b = some n) : 1 ≤ n ∧ n ≤ 8 := by
  unfold readCount at h
  split at h <;> cases h
  assumption

theorem readStream_ne_zero {b : Byte} {n : Stream} (h : readStream b = some n) : n ≠ 0 := by
  unfold readStream at h
  split at h <;> cases h
  assumption

/-- The parameters of a CREATE hold a stream and a count (R190). -/
theorem readCreate_formed {ps : List Byte} {f : CreateFields} (h : readCreate ps = some f) :
    f.stream ≠ 0 ∧ 1 ≤ f.count ∧ f.count ≤ 8 := by
  unfold readCreate at h
  split at h
  · simp only [Option.bind_eq_bind, Option.bind_eq_some_iff, Option.some.injEq] at h
    obtain ⟨_, hst, _, _, _, _, _, _, _, hn, _, _, _, _, _, _, rfl⟩ := h
    exact ⟨readStream_ne_zero hst, readCount_bounds hn⟩
  · cases h

theorem readShape_count {ps : List Byte} {h : Handle} {w : Width} {n : Nat} (hr : readShape ps = some (h, w, n)) :
    1 ≤ n ∧ n ≤ 8 := by
  unfold readShape at hr
  split at hr
  · simp only [Option.bind_eq_bind, Option.bind_eq_some_iff, Option.some.injEq, Prod.mk.injEq] at hr
    obtain ⟨_, _, _, _, _, hn, -, -, rfl⟩ := hr
    exact readCount_bounds hn
  · cases hr

theorem Kept.hostCreate (hk : Kept c P) (hc : c = .create) (ps : List Byte) (a : HostAct) (ha : hostCreate s ps = .ok a) :
    a.state.hostPort = s.hostPort ∧ (P s → P a.state) := by
  unfold Machine.hostCreate at ha
  split at ha
  · cases ha
  · next f hf =>
    refine Kept.hostLeaseAct ha fun x hx => ?_
    obtain ⟨owner, f', hcr⟩ := State.createLease_created (readCreate_formed hf) hx
    exact hk.create hc s owner f' _ _ hcr

theorem Kept.hostShape (hk : Kept c P) (ps : List Byte) (a : HostAct) (ha : hostShape s ps = .ok a) :
    a.state.hostPort = s.hostPort ∧ (P s → P a.state) := by
  unfold Machine.hostShape at ha
  split at ha
  · cases ha
  · next hr => exact Kept.hostLeaseAct ha fun x hx => hk.granted (State.shapeLease_ok (readShape_count hr) hx)

theorem Kept.hostAddListener (hk : Kept c P) (ps : List Byte) (a : HostAct) (ha : hostAddListener s ps = .ok a) :
    a.state.hostPort = s.hostPort ∧ (P s → P a.state) := by
  unfold Machine.hostAddListener at ha
  split at ha
  · cases ha
  · exact Kept.hostLeaseAct ha fun x hx => hk.granted (State.listenLease_ok hx)

theorem Kept.hostDropListener (hk : Kept c P) (ps : List Byte) (a : HostAct) (ha : hostDropListener s ps = .ok a) :
    a.state.hostPort = s.hostPort ∧ (P s → P a.state) := by
  unfold Machine.hostDropListener at ha
  split at ha
  · cases ha
  · exact Kept.hostLeaseAct ha fun x hx => hk.granted (State.dropLease_ok hx)

theorem Kept.hostRetire (hk : Kept c P) (ps : List Byte) (a : HostAct) (ha : hostRetire s ps = .ok a) :
    a.state.hostPort = s.hostPort ∧ (P s → P a.state) := by
  unfold Machine.hostRetire at ha
  split at ha
  · cases ha
  · exact Kept.hostLeaseAct ha fun x hx => hk.granted (State.retireLease_ok hx)

theorem Kept.hostRenew (hk : Kept c P) (ps : List Byte) (a : HostAct) (ha : hostRenew s ps = .ok a) :
    a.state.hostPort = s.hostPort ∧ (P s → P a.state) := by
  unfold Machine.hostRenew at ha
  split at ha
  · cases ha
  · exact Kept.hostLeaseAct ha fun x hx => hk.granted (State.renewLease_ok hx)

theorem Kept.hostSetRights (hk : Kept c P) (ps : List Byte) (a : HostAct) (ha : hostSetRights s ps = .ok a) :
    a.state.hostPort = s.hostPort ∧ (P s → P a.state) := by
  unfold Machine.hostSetRights at ha
  split at ha
  · cases ha
  · exact Kept.hostLeaseAct ha fun x hx => hk.granted (State.setRightsLease_ok hx)

theorem Kept.hostBindLocal (hk : Kept c P) (ps : List Byte) (a : HostAct) (ha : hostBindLocal s ps = .ok a) :
    a.state.hostPort = s.hostPort ∧ (P s → P a.state) := by
  unfold Machine.hostBindLocal at ha
  split at ha
  · cases ha
  · exact Kept.hostLeaseAct ha fun x hx => hk.granted (State.bindLease_ok hx)

theorem Kept.hostQuery (hk : Kept c P) (ps : List Byte) (a : HostAct) (ha : hostQuery s ps = .ok a) :
    a.state.hostPort = s.hostPort ∧ (P s → P a.state) := by
  unfold Machine.hostQuery at ha
  split at ha
  · cases ha
  · next h clear _ =>
    split at ha <;> cases ha
    next l ht =>
    refine ⟨by simp, hk.grant s h.index l _ (State.target_ok_lease ht) ?_⟩
    cases clear
    · exact .nothing
    · exact .query

theorem Kept.hostResolve (ps : List Byte) (a : HostAct) (ha : hostResolve s ps = .ok a) :
    a.state.hostPort = s.hostPort ∧ (P s → P a.state) := by
  unfold Machine.hostResolve at ha
  split at ha
  · cases ha
  · split at ha <;> cases ha
    exact ⟨rfl, id⟩

theorem State.sealRepack_hostPort (s : State) (plan : List (PlanItem × Nat)) :
    (s.sealRepack plan).hostPort = s.hostPort := by simp [State.sealRepack]

theorem State.sealStaged_hostPort (s : State) : s.sealStaged.hostPort = s.hostPort := by simp [State.sealStaged]

theorem Kept.hostRepack (hk : Kept c P) (ps : List Byte) (a : HostAct) (ha : hostRepack s ps = .ok a) :
    a.state.hostPort = s.hostPort ∧ (P s → P a.state) := by
  unfold Machine.hostRepack at ha
  split at ha
  · cases ha
  · repeat' split at ha
    all_goals cases ha
    · exact ⟨rfl, id⟩
    · next hrun hfree _ plan hplan hmoved =>
      have hr : s.chain.state = .running := by
        cases hs : s.chain.state
        · exact absurd hs hrun
        · rfl
      rw [not_or, not_ne_iff, Bool.not_eq_true] at hfree
      exact ⟨s.sealRepack_hostPort plan, hk.repack s plan hr hfree.1 hfree.2 hplan hmoved⟩

theorem Kept.hostPublish (hk : Kept c P) (ps : List Byte) (a : HostAct) (ha : hostPublish s ps = .ok a) :
    a.state.hostPort = s.hostPort ∧ (P s → P a.state) := by
  unfold Machine.hostPublish at ha
  split at ha
  · cases ha
  · repeat' split at ha
    all_goals cases ha
    · next hrun hset hany =>
      have hr : s.chain.state = .running := by
        cases hs : s.chain.state
        · exact absurd hs hrun
        · rfl
      exact ⟨s.sealStaged_hostPort, hk.publish s hr (by simpa using hset) hany⟩
    · exact ⟨rfl, id⟩

theorem Kept.hostSetPublishing (hk : Kept c P) (ps : List Byte) (a : HostAct) (ha : hostSetPublishing s ps = .ok a) :
    a.state.hostPort = s.hostPort ∧ (P s → P a.state) := by
  unfold Machine.hostSetPublishing at ha
  split at ha <;> cases ha
  exact ⟨by rw [State.setPublishing_eq], hk.setPublishing s _ _⟩

theorem Kept.hostReadMember (ps : List Byte) (a : HostAct) (ha : hostReadMember s ps = .ok a) :
    a.state.hostPort = s.hostPort ∧ (P s → P a.state) := by
  unfold Machine.hostReadMember at ha
  split at ha <;> cases ha
  exact ⟨rfl, id⟩

theorem Kept.hostSetExpected (hk : Kept c P) (ps : List Byte) (a : HostAct) (ha : hostSetExpected s ps = .ok a) :
    a.state.hostPort = s.hostPort ∧ (P s → P a.state) := by
  unfold Machine.hostSetExpected at ha
  split at ha <;> cases ha
  exact ⟨by simp, hk.setExpected s _ _⟩

theorem Kept.hostSetAdmission (hk : Kept c P) (ps : List Byte) (a : HostAct) (ha : hostSetAdmission s ps = .ok a) :
    a.state.hostPort = s.hostPort ∧ (P s → P a.state) := by
  unfold Machine.hostSetAdmission at ha
  split at ha <;> cases ha
  exact ⟨rfl, hk.setAdmission s _⟩

theorem Kept.hostChainStart (hk : Kept c P) (hc : c = .chainStart) (ps : List Byte) (a : HostAct) (ha : hostChainStart s ps = .ok a) :
    a.state.hostPort = s.hostPort ∧ (P s → P a.state) := by
  unfold Machine.hostChainStart at ha
  split at ha
  · cases ha
  · split at ha <;> cases ha
    next hrun =>
    have hstop : s.chain.state = .stopped := by
      cases hs : s.chain.state
      · rfl
      · exact absurd hs hrun
    exact ⟨rfl, hk.chainStart hc s _ _ _ hstop⟩

theorem State.stopChain_hostPort (s : State) : s.stopChain.hostPort = s.hostPort := by simp [State.stopChain]

theorem Kept.hostChainStop (hk : Kept c P) (hc : c = .chainStop) (ps : List Byte) (a : HostAct) (ha : hostChainStop s ps = .ok a) :
    a.state.hostPort = s.hostPort ∧ (P s → P a.state) := by
  unfold Machine.hostChainStop at ha
  split at ha <;> cases ha
  dsimp only
  split
  · next hrun => exact ⟨s.stopChain_hostPort, hk.chainStop hc s hrun⟩
  · exact ⟨rfl, id⟩

theorem Kept.hostFetchAttention (hk : Kept c P) (hc : c = .fetchAttention) (ps : List Byte) (a : HostAct)
    (ha : hostFetchAttention s ps = .ok a) : a.state.hostPort = s.hostPort ∧ (P s → P a.state) := by
  unfold Machine.hostFetchAttention at ha
  split at ha <;> cases ha
  exact ⟨rfl, hk.fetch hc s⟩

theorem Kept.hostReadStatus (ps : List Byte) (a : HostAct) (ha : hostReadStatus s ps = .ok a) :
    a.state.hostPort = s.hostPort ∧ (P s → P a.state) := by
  unfold Machine.hostReadStatus at ha
  split at ha <;> cases ha
  exact ⟨rfl, id⟩

/-! ### Member requests -/

theorem State.memberRequest?_queue {s : State} {e : QueueEntry} {rest : List QueueEntry}
    (h : s.memberRequest? = some (e, rest)) : s.engine.queue = e :: rest := by
  unfold State.memberRequest? at h
  split at h
  · cases h
  · next hq =>
    rw [hq]
    repeat' split at h
    all_goals cases h
    all_goals rfl

theorem Kept.takeMember (hk : Kept c P) (hc : servesHost c = false) {op : BitVec 3} {named : QueueEntry → Handle}
    {meaning : State → QueueEntry → Except Status MemberAct}
    (hm : ∀ e rest a, s.engine.queue = e :: rest → meaning (s.dequeued rest) e = .ok a → P s →
      P (a.state.pend e a.status a.handle a.result)) (hs : P s) : P (s.takeMember op named meaning) := by
  unfold State.takeMember
  split
  · exact hs
  · next e rest hr =>
    have hq := State.memberRequest?_queue hr
    split
    · dsimp only
      split
      · next a ha => exact hm e rest a hq ha hs
      · exact hk.memberAnswer hc s e rest _ _ _ hq hs
    · exact hs

theorem Kept.memberLeaseAct (hk : Kept c P) (hc : servesHost c = false) {e : QueueEntry} {rest : List QueueEntry} (hq : s.engine.queue = e :: rest)
    {r : Except Status LeaseAct} {f : LeaseAct → BitVec 22} {a : MemberAct}
    (ha : (s.dequeued rest).memberLeaseAct r f = .ok a) (hr : ∀ x, r = .ok x → (s.dequeued rest).Granted x) (hs : P s) :
    P (a.state.pend e a.status a.handle a.result) := by
  unfold State.memberLeaseAct at ha
  split at ha <;> cases ha
  next x =>
  obtain ⟨l, hl, hg⟩ := hr x rfl
  exact hk.memberGrant hc s e rest x.index l x.event _ _ _ hq hl hg hs

theorem QueueEntry.create_formed {e : QueueEntry} {f : CreateFields} (h : e.create = some f) :
    f.stream ≠ 0 ∧ 1 ≤ f.count ∧ f.count ≤ 8 := by
  simp only [QueueEntry.create, Option.bind_eq_bind, Option.bind_eq_some_iff, Option.some.injEq] at h
  obtain ⟨_, hst, _, _, rfl⟩ := h
  refine ⟨readStream_ne_zero hst, ?_⟩
  have := (fieldAt e.payload 15 3).isLt
  simp only [countOf]
  omega

theorem QueueEntry.shape_count {e : QueueEntry} {w : Width} {n : Nat} (h : e.shape = some (w, n)) : 1 ≤ n ∧ n ≤ 8 := by
  simp only [QueueEntry.shape, Option.bind_eq_bind, Option.bind_eq_some_iff, Option.some.injEq, Prod.mk.injEq] at h
  obtain ⟨_, _, -, rfl⟩ := h
  have := (fieldAt e.payload 17 3).isLt
  simp only [countOf]
  omega

theorem Kept.memberCreates (hk : Kept c P) (hc : c = .memberCreate) (e : QueueEntry) (rest : List QueueEntry) (a : MemberAct)
    (hq : s.engine.queue = e :: rest) (ha : Machine.memberCreate (s.dequeued rest) e = .ok a) (hs : P s) :
    P (a.state.pend e a.status a.handle a.result) := by
  unfold Machine.memberCreate at ha
  split at ha
  · cases ha
  · next f hf =>
    unfold State.memberLeaseAct at ha
    split at ha <;> cases ha
    next x hx =>
    obtain ⟨owner, f', hcr⟩ := State.createLease_created (QueueEntry.create_formed hf) hx
    exact hk.memberCreate hc s e rest owner f' x.index x.event _ _ _ hq hcr hs

theorem Kept.memberShape (hk : Kept c P) (hc : servesHost c = false) (e : QueueEntry) (rest : List QueueEntry) (a : MemberAct)
    (hq : s.engine.queue = e :: rest) (ha : Machine.memberShape (s.dequeued rest) e = .ok a) (hs : P s) :
    P (a.state.pend e a.status a.handle a.result) := by
  unfold Machine.memberShape at ha
  split at ha
  · cases ha
  · next hr => exact hk.memberLeaseAct hc hq ha (fun x hx => State.shapeLease_ok (QueueEntry.shape_count hr) hx) hs

theorem Kept.memberResolve (hk : Kept c P) (hc : servesHost c = false) (e : QueueEntry) (rest : List QueueEntry) (a : MemberAct)
    (hq : s.engine.queue = e :: rest) (ha : Machine.memberResolve (s.dequeued rest) e = .ok a) (hs : P s) :
    P (a.state.pend e a.status a.handle a.result) := by
  unfold Machine.memberResolve at ha
  split at ha
  · cases ha
  · split at ha <;> cases ha
    exact hk.memberAnswer hc s e rest _ _ _ hq hs

/-! ### The frame -/

theorem State.appliesNow_of_due {s : State} (h : s.applicationDue = true) : ∃ set, s.AppliesNow set := by
  unfold State.applicationDue at h
  rw [Bool.and_eq_true] at h
  obtain ⟨hf, h⟩ := h
  split at h
  · next set f hst => exact ⟨set, hf, by rw [hst, beq_iff_eq.1 h]⟩
  · cases h

theorem Kept.takeApplication (hk : Kept c P) (hs : P s) : P s.takeApplication := by
  unfold State.takeApplication
  split
  · next h =>
    obtain ⟨set, ha⟩ := State.appliesNow_of_due h
    simp only [ha.2, PublisherStage.set?]
    exact hk.application s set ha hs
  · exact hs

theorem Kept.takeExpiry (hk : Kept c P) (i : LeaseIndex) (hs : P s) : P (s.takeExpiry i) := by
  unfold State.takeExpiry
  split
  · next h => exact hk.expiry s i h hs
  · exact hs

theorem Kept.takeExpiries (hk : Kept c P) (hs : P s) : P s.takeExpiries := by
  unfold State.takeExpiries
  split
  · next h => exact hk.expiries s h hs
  · exact hs

theorem State.windowDue_iff {s : State} :
    s.windowDue = true ↔ s.inFrame = true ∧ s.publisher.stage = .batching s.chain.counter := by
  unfold State.windowDue
  cases s.publisher.stage <;> simp

theorem Kept.takeWindowEnd (hk : Kept c P) (hs : P s) : P s.takeWindowEnd := by
  unfold State.takeWindowEnd
  split
  · next h =>
    obtain ⟨hf, hb⟩ := State.windowDue_iff.1 h
    exact hk.windowEnd s hf hb hs
  · exact hs

theorem Kept.takeChoice (hk : Kept c P) (hs : P s) : P s.takeChoice := by
  unfold State.takeChoice
  split
  · next h =>
    rw [Bool.and_eq_true, Option.isNone_iff_eq_none] at h
    exact hk.choice s h.1 h.2 hs
  · exact hs

theorem Kept.reachResponse (hk : Kept c P) (hs : P s) : P s.reachResponse := by
  have hf : P s.finishFrameStart := hk.takeChoice (hk.takeWindowEnd (hk.takeExpiries (hk.takeApplication hs)))
  unfold State.reachResponse State.driveDown
  split
  · next h => exact hk.drive _ _ (Bool.and_eq_true _ _ ▸ h).1 hf
  · exact hf

theorem Kept.takeResponse (hk : Kept c P) (w : ChainWord) (hs : P s) : P (s.takeResponse w) := by
  unfold State.takeResponse
  split
  · next h => exact hk.word s w h hs
  · exact hs

theorem Kept.reachUpRegion (hk : Kept c P) (hs : P s) : P s.reachUpRegion := hk.takeResponse 0 (hk.reachResponse hs)

theorem State.inFrame_of_readsSlot {s : State} {i : LeaseIndex} {l : Lease} {k : Fin 8} (h : s.readsSlot i l k = true) :
    s.inFrame = true := by
  unfold State.readsSlot at h
  simp only [Bool.and_eq_true] at h
  exact h.1.1.1.1

theorem Kept.readSlot (hk : Kept c P) (i : LeaseIndex) (k : Fin 8) (region : BitVec 440) (hs : P s) :
    P (s.readSlot i k region) := by
  rcases s.readSlot_cases i k region with ⟨h, -⟩ | ⟨l, o, hl, -, hr, h⟩ <;> rw [h]
  · exact hs
  · exact hk.slot s i l k _ hl (State.inFrame_of_readsSlot hr) hs

theorem Kept.takeMissDue (hk : Kept c P) (p : Position) (st : MemberState) (hs : P s) :
    P (if s.missDue p st = true then s.takeMiss p else s) := by
  split
  · next h =>
    simp only [State.missDue, Bool.and_eq_true] at h
    exact hk.miss s p h.1.1 hs
  · exact hs

/-! ### What the events of a frame do, case by case -/

theorem State.releaseLost_keeps {P : State → Prop} (hone : ∀ s p, P s → P (s.releaseOne p)) {s : State} (hs : P s) :
    P s.releaseLost := by
  unfold State.releaseLost
  generalize memberPositions.reverse = ps
  induction ps generalizing s with
  | nil => exact hs
  | cons p ps ih => exact ih (hone s p hs)

section
variable (s : State)

@[simp] theorem State.releaseLost_leases : s.releaseLost.leases = s.leases :=
  State.releaseLost_keeps (P := fun t => t.leases = s.leases) (fun t p h => by simpa using h) rfl
@[simp] theorem State.releaseLost_engine : s.releaseLost.engine = s.engine :=
  State.releaseLost_keeps (P := fun t => t.engine = s.engine) (fun t p h => by simpa using h) rfl
@[simp] theorem State.releaseLost_publisher : s.releaseLost.publisher = s.publisher :=
  State.releaseLost_keeps (P := fun t => t.publisher = s.publisher) (fun t p h => by simpa using h) rfl
@[simp] theorem State.releaseLost_chain : s.releaseLost.chain = s.chain :=
  State.releaseLost_keeps (P := fun t => t.chain = s.chain) (fun t p h => by simpa using h) rfl
@[simp] theorem State.releaseLost_localPort : s.releaseLost.localPort = s.localPort :=
  State.releaseLost_keeps (P := fun t => t.localPort = s.localPort) (fun t p h => by simpa using h) rfl
@[simp] theorem State.releaseLost_hostPort : s.releaseLost.hostPort = s.hostPort :=
  State.releaseLost_keeps (P := fun t => t.hostPort = s.hostPort) (fun t p h => by simpa using h) rfl
@[simp] theorem State.releaseLost_inReset : s.releaseLost.inReset = s.inReset :=
  State.releaseLost_keeps (P := fun t => t.inReset = s.inReset) (fun t p h => by simpa using h) rfl
@[simp] theorem State.releaseLost_pending : s.releaseLost.pending = s.pending :=
  State.releaseLost_keeps (P := fun t => t.pending = s.pending) (fun t p h => by simpa using h) rfl
@[simp] theorem State.releaseLost_lease (j : LeaseIndex) : s.releaseLost.lease? j = s.lease? j := by
  simp [State.lease?]

end

/-- Everything that the choice of the control message can do (R142). -/
inductive State.Chooses (s : State) : State → Prop
  | switch (set : ChangeSet) (f : FrameNumber) (stage : s.publisher.stage = .switching set f) :
      s.Chooses (s.send .switch (switchWord s.publisher.epoch set.number f))
  | notice (set : ChangeSet) (n : Notice) (stage : s.publisher.stage = .notifying set) (next : set.nextNotice = some n) :
      s.Chooses (s.sendNotice set n)
  | delivery (d : Delivery) (rest : List Delivery) (head : s.chain.delivery = d :: rest) : s.Chooses (s.sendDelivery d rest)
  | openCall (t : Position) (due : s.openCallDue = some t) :
      s.Chooses (({ s with members := { s.members with lastOpenCall := some s.chain.counter } } : State).send
        (.openCall t) (openCallWord s.publisher.epoch t))
  | poll (p : Position) (target : s.pollTarget = some p) :
      s.Chooses (({ s with chain := { s.chain with pollMark := some p } } : State).send
        (.addressed .poll p) (pollWord s.publisher.epoch p))
  | idle : s.Chooses (s.send .idle (idleWord s.publisher.epoch))

theorem State.dueNotice_some {s : State} {set : ChangeSet} {n : Notice} (h : s.dueNotice = some (set, n)) :
    s.publisher.stage = .notifying set ∧ set.nextNotice = some n := by
  unfold State.dueNotice at h
  split at h
  · next set' hst =>
    rw [Option.map_eq_some_iff] at h
    obtain ⟨n', hn, he⟩ := h
    cases he
    exact ⟨hst, hn⟩
  · cases h

theorem State.sendOther_chooses (s : State) : s.Chooses s.sendOther := by
  unfold State.sendOther
  split
  · next t ht => exact .openCall t ht
  · split
    · next p hp => exact .poll p hp
    · exact .idle

theorem State.sendByPrecedence_chooses (s : State) : s.Chooses s.sendByPrecedence := by
  unfold State.sendByPrecedence
  split
  · next d rest set n hd hn =>
    split
    · exact .notice set n (State.dueNotice_some hn).1 (State.dueNotice_some hn).2
    · exact .delivery d rest hd
  · next d rest hd _ => exact .delivery d rest hd
  · next set n _ hn => exact .notice set n (State.dueNotice_some hn).1 (State.dueNotice_some hn).2
  · exact s.sendOther_chooses

theorem State.chooseMessage_chooses (s : State) : s.Chooses s.chooseMessage := by
  unfold State.chooseMessage
  split
  · next set f hst =>
    split
    · exact .switch set f hst
    · exact s.sendByPrecedence_chooses
  · exact s.sendByPrecedence_chooses

theorem State.Chooses.chain_state {s t : State} (h : s.Chooses t) : t.chain.state = s.chain.state := by
  cases h with
  | delivery d rest => cases d <;> simp [State.sendDelivery]
  | notice => simp [State.sendNotice]
  | _ => simp

theorem State.Chooses.pending {s t : State} (h : s.Chooses t) : t.pending = s.pending := by
  cases h with
  | delivery d rest => cases d <;> simp [State.sendDelivery]
  | notice => simp [State.sendNotice]
  | _ => simp

/-- What the response word of a frame is taken for, once it is taken (R121 to R123, R146, R147). -/
theorem State.countMiss_cases (s : State) (p : Position) :
    let t := s.setMember p { s.member p with misses := (s.member p).misses + 1 }
    (s.countMiss p = t ∧ (s.atLimit ((s.member p).misses + 1) = false ∨ ((s.member p).state ≠ .joined ∧ (s.member p).state ≠ .admitting)))
    ∨ (s.countMiss p = t.loseMember p ∧ s.atLimit ((s.member p).misses + 1) = true ∧ (s.member p).state = .joined)
    ∨ (s.countMiss p = t.failAdmission p ∧ s.atLimit ((s.member p).misses + 1) = true ∧ (s.member p).state = .admitting) := by
  unfold State.countMiss
  dsimp only
  split
  · next h =>
    cases hs : (s.member p).state <;> simp [h]
  · next h => exact .inl ⟨rfl, .inl (Bool.eq_false_iff.2 h)⟩

theorem State.loseMember_chain_state (s : State) (k : Position) : (s.loseMember k).chain.state = s.chain.state := by
  simp [State.loseMember, State.cascade]

theorem State.countMiss_chain_state (s : State) (p : Position) : (s.countMiss p).chain.state = s.chain.state := by
  rcases s.countMiss_cases p with ⟨h, -⟩ | ⟨h, -⟩ | ⟨h, -⟩ <;> rw [h]
  · simp
  · simp [State.loseMember_chain_state]
  · simp [State.failAdmission]

theorem State.intake_chain (s : State) (p : Position) (x : BitVec 40) : (s.intake p x).chain = s.chain := by
  unfold State.intake
  repeat' split
  all_goals simp

theorem State.responseOutcome_chain_state (s : State) (k : Addressed) (p : Position) (valid ack : Bool) :
    (s.responseOutcome k p valid ack).chain.state = s.chain.state := by
  unfold State.responseOutcome
  repeat' split
  all_goals simp [State.countMiss_chain_state, State.joinMember]

theorem State.takeJoin_chain_state (s : State) (p : Position) (d : Identity) :
    (s.takeJoin p d).chain.state = s.chain.state := by
  unfold State.takeJoin
  dsimp only
  split <;> simp

theorem State.takeWord_chain_state (s : State) (w : ChainWord) : (s.takeWord w).chain.state = s.chain.state := by
  unfold State.takeWord
  dsimp only
  split
  · split <;> simp [State.takeJoin_chain_state]
  · rw [State.responseOutcome_chain_state]
    split <;> simp [State.intake_chain]
  · rfl

theorem State.countMiss_pending (s : State) (p : Position) : (s.countMiss p).pending = s.pending := by
  rcases s.countMiss_cases p with ⟨h, -⟩ | ⟨h, -⟩ | ⟨h, -⟩ <;> rw [h] <;> simp [State.loseMember]

theorem State.intake_pending (s : State) (p : Position) (x : BitVec 40) : (s.intake p x).pending = s.pending := by
  unfold State.intake
  repeat' split
  all_goals simp

theorem State.responseOutcome_pending (s : State) (k : Addressed) (p : Position) (valid ack : Bool) :
    (s.responseOutcome k p valid ack).pending = s.pending := by
  unfold State.responseOutcome
  repeat' split
  all_goals simp [State.countMiss_pending]

theorem State.takeWord_pending (s : State) (w : ChainWord) : (s.takeWord w).pending = s.pending := by
  unfold State.takeWord State.takeJoin
  dsimp only
  split
  · repeat' split
    all_goals simp
  · rw [State.responseOutcome_pending]
    split <;> simp [State.intake_pending]
  · rfl

/-- A chain that runs runs on to the end of a frame. -/
theorem kept_running : Kept .frameStart fun s => s.chain.state = .running where
  port hc := by cases hc
  deviceReset hc := by cases hc
  resetEnd _ h := h
  answer _ _ _ _ _ _ h := by simpa using h
  grant _ _ _ _ _ _ h := by simpa using h
  create hc := by cases hc
  repack _ _ _ _ _ _ _ h := by simpa [State.sealRepack] using h
  publish _ _ _ _ h := by simpa [State.sealStaged] using h
  setPublishing _ _ _ h := by simpa [State.setPublishing_eq] using h
  setExpected _ _ _ h := by simpa using h
  setAdmission _ _ h := h
  chainStart hc := by cases hc
  chainStop hc := by cases hc
  fetch hc := by cases hc
  memberAnswer _ _ _ _ _ _ _ _ h := by simpa [State.pend, State.dequeued] using h
  memberGrant _ _ _ _ _ _ _ _ _ _ _ _ _ h := by simpa [State.pend, State.dequeued] using h
  memberCreate hc := by cases hc
  application _ _ _ h := by simpa [State.applySet] using h
  expiry _ _ _ h := by simpa using h
  expiries _ _ h := by simpa using h
  windowEnd s _ _ h := by
    unfold State.endWindow
    split <;> simpa [State.sealStaged] using h
  choice s _ _ h := s.chooseMessage_chooses.chain_state.trans h
  drive _ _ _ h := by simpa using h
  word s w _ h := (s.takeWord_chain_state w).trans h
  frameStart _ h _ := h
  slot s i l k bits _ _ h := by
    unfold State.takeSlot State.gatherSlot
    dsimp only
    split <;> simpa using h
  miss s p _ h := (State.countMiss_chain_state _ p).trans h
  period _ _ _ h := h

/-! ### Every command -/

theorem execRequestWrite_port {frame : List Byte} {stray : Fin 8} {t : State}
    (h : execRequestWrite frame stray s = .next t) : t = s.setPort t.hostPort := by
  unfold execRequestWrite at h
  obtain rfl := Host.Outcome.next.inj h
  unfold State.openSelect State.fallSelect
  repeat' split
  all_goals rfl

theorem execAnswerRead_port {m : ReadMoment} {t : State} (h : execAnswerRead m s = .next t) : t = s.setPort t.hostPort := by
  unfold execAnswerRead at h
  obtain rfl := Host.Outcome.next.inj h
  unfold State.startRead State.openSelect State.fallSelect
  repeat' split
  all_goals rfl

theorem execStatusRead_port {t : State} (h : execStatusRead s = .next t) : t = s.setPort t.hostPort := by
  unfold execStatusRead at h
  obtain rfl := Host.Outcome.next.inj h
  unfold State.openSelect State.fallSelect
  repeat' split
  all_goals rfl

theorem execUnknownSelector_port {b : Byte} {t : State} (h : execUnknownSelector b s = .next t) :
    t = s.setPort t.hostPort := by
  unfold execUnknownSelector at h
  obtain rfl := Host.Outcome.next.inj h
  unfold State.openSelect State.fallSelect
  repeat' split
  all_goals rfl

theorem execSelectPeriodStart_port {t : State} (h : execSelectPeriodStart s = .next t) : t = s.setPort t.hostPort := by
  unfold execSelectPeriodStart State.fallSelect at h
  obtain rfl := Host.Outcome.next.inj h
  split <;> rfl

/-- What every event of a command keeps, the command keeps. -/
theorem Kept.exec (hk : Kept c P) {t : State} (h : exec c s = .next t) (hs : P s) : P t := by
  cases c with
  | requestWrite frame stray => exact hk.port rfl s t h (execRequestWrite_port h) hs
  | answerRead moment => exact hk.port rfl s t h (execAnswerRead_port h) hs
  | statusRead => exact hk.port rfl s t h (execStatusRead_port h) hs
  | unknownSelector b => exact hk.port rfl s t h (execUnknownSelector_port h) hs
  | selectPeriodStart => exact hk.port rfl s t h (execSelectPeriodStart_port h) hs
  | deviceReset => exact hk.deviceReset rfl s t h hs
  | resetEnd => obtain rfl := Host.Outcome.next.inj h; exact hk.resetEnd s hs
  | create => obtain rfl := Host.Outcome.next.inj h; exact hk.takeHost rfl (hk.hostCreate rfl) hs
  | shape => obtain rfl := Host.Outcome.next.inj h; exact hk.takeHost rfl hk.hostShape hs
  | addListener => obtain rfl := Host.Outcome.next.inj h; exact hk.takeHost rfl hk.hostAddListener hs
  | dropListener => obtain rfl := Host.Outcome.next.inj h; exact hk.takeHost rfl hk.hostDropListener hs
  | retire => obtain rfl := Host.Outcome.next.inj h; exact hk.takeHost rfl hk.hostRetire hs
  | renew => obtain rfl := Host.Outcome.next.inj h; exact hk.takeHost rfl hk.hostRenew hs
  | setRights => obtain rfl := Host.Outcome.next.inj h; exact hk.takeHost rfl hk.hostSetRights hs
  | bindLocal => obtain rfl := Host.Outcome.next.inj h; exact hk.takeHost rfl hk.hostBindLocal hs
  | query => obtain rfl := Host.Outcome.next.inj h; exact hk.takeHost rfl hk.hostQuery hs
  | resolve => obtain rfl := Host.Outcome.next.inj h; exact hk.takeHost rfl Kept.hostResolve hs
  | repack => obtain rfl := Host.Outcome.next.inj h; exact hk.takeHost rfl hk.hostRepack hs
  | publish => obtain rfl := Host.Outcome.next.inj h; exact hk.takeHost rfl hk.hostPublish hs
  | setPublishing => obtain rfl := Host.Outcome.next.inj h; exact hk.takeHost rfl hk.hostSetPublishing hs
  | readMember => obtain rfl := Host.Outcome.next.inj h; exact hk.takeHost rfl Kept.hostReadMember hs
  | setExpected => obtain rfl := Host.Outcome.next.inj h; exact hk.takeHost rfl hk.hostSetExpected hs
  | setAdmission => obtain rfl := Host.Outcome.next.inj h; exact hk.takeHost rfl hk.hostSetAdmission hs
  | chainStart => obtain rfl := Host.Outcome.next.inj h; exact hk.takeHost rfl (hk.hostChainStart rfl) hs
  | chainStop => obtain rfl := Host.Outcome.next.inj h; exact hk.takeHost rfl (hk.hostChainStop rfl) hs
  | fetchAttention => obtain rfl := Host.Outcome.next.inj h; exact hk.takeHost rfl (hk.hostFetchAttention rfl) hs
  | readStatus => obtain rfl := Host.Outcome.next.inj h; exact hk.takeHost rfl Kept.hostReadStatus hs
  | unknownCommand => obtain rfl := Host.Outcome.next.inj h; exact hk.takeHost rfl (fun _ _ h => by cases h) hs
  | memberCreate => obtain rfl := Host.Outcome.next.inj h; exact hk.takeMember rfl (hk.memberCreates rfl) hs
  | memberShape => obtain rfl := Host.Outcome.next.inj h; exact hk.takeMember rfl (hk.memberShape rfl) hs
  | listen =>
    obtain rfl := Host.Outcome.next.inj h
    exact hk.takeMember rfl (fun _ _ _ hq ha => hk.memberLeaseAct rfl hq ha fun _ => State.listenLease_ok) hs
  | quit =>
    obtain rfl := Host.Outcome.next.inj h
    exact hk.takeMember rfl (fun _ _ _ hq ha => hk.memberLeaseAct rfl hq ha fun _ => State.dropLease_ok) hs
  | memberRetire =>
    obtain rfl := Host.Outcome.next.inj h
    exact hk.takeMember rfl (fun _ _ _ hq ha => hk.memberLeaseAct rfl hq ha fun _ => State.retireLease_ok) hs
  | memberRenew =>
    obtain rfl := Host.Outcome.next.inj h
    exact hk.takeMember rfl (fun _ _ _ hq ha => hk.memberLeaseAct rfl hq ha fun _ => State.renewLease_ok) hs
  | memberResolve => obtain rfl := Host.Outcome.next.inj h; exact hk.takeMember rfl (hk.memberResolve rfl) hs
  | memberOpNone => obtain rfl := Host.Outcome.next.inj h; exact hk.takeMember rfl (fun _ _ _ _ h => by cases h) hs
  | frameStart =>
    obtain rfl := Host.Outcome.next.inj h
    split
    · next hr => exact hk.frameStart _ (kept_running.reachUpRegion hr) (hk.reachUpRegion hs)
    · exact hs
  | expiry i => obtain rfl := Host.Outcome.next.inj h; exact hk.takeExpiry i hs
  | batchWindowEnd => obtain rfl := Host.Outcome.next.inj h; exact hk.takeWindowEnd hs
  | setApplication => obtain rfl := Host.Outcome.next.inj h; exact hk.takeApplication hs
  | controlMessageChoice => obtain rfl := Host.Outcome.next.inj h; exact hk.takeChoice (hk.takeApplication hs)
  | responseWord w => obtain rfl := Host.Outcome.next.inj h; exact hk.takeResponse w (hk.reachResponse hs)
  | downRegionDrive => obtain rfl := Host.Outcome.next.inj h; exact hk.reachResponse hs
  | upSlotRead i k region => obtain rfl := Host.Outcome.next.inj h; exact hk.readSlot i k region (hk.reachUpRegion hs)
  | memberLoss p => obtain rfl := Host.Outcome.next.inj h; exact hk.takeMissDue p .joined (hk.reachResponse hs)
  | admissionFailure p => obtain rfl := Host.Outcome.next.inj h; exact hk.takeMissDue p .admitting (hk.reachResponse hs)
  | lbckPeriod lsdi =>
    obtain rfl := Host.Outcome.next.inj h
    split
    · next hf => exact hk.period s lsdi hf hs
    · exact hs

end

end Sys2Proof.Machine
end

section
/-! PROOFS. The repack plan (R39): the order of the items, first-fit along it, and when there is no plan. -/

namespace Sys2Proof.Machine

/-! ## The order of the items -/

theorem PlanItem.before_iff {a b : PlanItem} : a.before b = true ↔ b.config.cost < a.config.cost
    ∨ (a.config.cost = b.config.cost ∧ (b.spanLength < a.spanLength ∨ (a.spanLength = b.spanLength ∧ a.index < b.index))) := by
  unfold PlanItem.before
  simp only [Bool.or_eq_true, Bool.and_eq_true, decide_eq_true_eq, beq_iff_eq, ← Fin.lt_def]

theorem PlanItem.before_trans {a b c : PlanItem} (h : a.before b = true) (h' : b.before c = true) : a.before c = true := by
  simp only [PlanItem.before_iff, Fin.lt_def] at *
  omega

theorem PlanItem.before_irrefl (a : PlanItem) : a.before a = false := by
  simp [Bool.eq_false_iff, PlanItem.before_iff]

theorem PlanItem.before_total {a b : PlanItem} (h : a.index ≠ b.index) (hn : a.before b = false) : b.before a = true := by
  have hv : a.index.val ≠ b.index.val := fun hv => h (Fin.ext hv)
  rw [Bool.eq_false_iff, ne_eq] at hn
  simp only [PlanItem.before_iff, Fin.lt_def] at *
  omega

theorem insertItem_perm (p : PlanItem) (qs : List PlanItem) : (insertItem p qs).Perm (p :: qs) := by
  induction qs with
  | nil => exact .refl _
  | cons q qs ih =>
    unfold insertItem
    split
    · exact .refl _
    · exact (ih.cons q).trans (.swap p q qs)

theorem orderItems_perm (ps : List PlanItem) : (orderItems ps).Perm ps := by
  unfold orderItems
  induction ps with
  | nil => exact .refl _
  | cons p ps ih => exact (insertItem_perm p _).trans (ih.cons p)

theorem insertItem_sorted {p : PlanItem} {qs : List PlanItem} (hq : qs.Pairwise fun a b => a.before b = true)
    (hp : ∀ q ∈ qs, p.index ≠ q.index) : (insertItem p qs).Pairwise fun a b => a.before b = true := by
  induction qs with
  | nil => simp [insertItem]
  | cons q qs ih =>
    obtain ⟨hq', hqs⟩ := List.pairwise_cons.1 hq
    unfold insertItem
    split
    · next h =>
      refine List.pairwise_cons.2 ⟨fun x hx => ?_, hq⟩
      rcases List.mem_cons.1 hx with rfl | hx
      · exact h
      · exact PlanItem.before_trans h (hq' x hx)
    · next h =>
      refine List.pairwise_cons.2 ⟨fun x hx => ?_, ih hqs fun x hx => hp x (List.mem_cons_of_mem q hx)⟩
      rcases List.mem_cons.1 ((insertItem_perm p qs).mem_iff.1 hx) with rfl | hx
      · exact PlanItem.before_total (hp q List.mem_cons_self) (Bool.eq_false_iff.2 h)
      · exact hq' x hx

theorem orderItems_sorted {ps : List PlanItem} (h : ps.Pairwise fun a b => a.index ≠ b.index) :
    (orderItems ps).Pairwise fun a b => a.before b = true := by
  induction ps with
  | nil => exact .nil
  | cons p ps ih =>
    obtain ⟨hp, hps⟩ := List.pairwise_cons.1 h
    exact insertItem_sorted (ih hps) fun q hq => hp q ((orderItems_perm ps).mem_iff.1 hq)

/-! ## The items of a plan -/

/-- A lease takes part in a repack with its active configuration, when that is placed (R39). -/
def State.TakesPart (s : State) (a : PlanItem) : Prop :=
  ∃ l, s.lease? a.index = some l ∧ l.active.placement ≠ none
    ∧ a.direction = l.direction ∧ a.source = l.source ∧ a.config = l.active

theorem State.mem_planItems {s : State} {a : PlanItem} : a ∈ s.planItems ↔ s.TakesPart a := by
  unfold State.planItems State.TakesPart allLeases
  simp only [List.mem_filterMap, List.mem_finRange, true_and]
  constructor
  · rintro ⟨i, hi⟩
    split at hi
    · next l hl =>
      split at hi <;> cases hi
      next hp => exact ⟨l, hl, by simpa [Configuration.placed, Option.isSome_iff_ne_none] using hp, rfl, rfl, rfl⟩
    · cases hi
  · rintro ⟨l, hl, hp, hd, hs, hc⟩
    refine ⟨a.index, ?_⟩
    have hp' : l.active.placed = true := Option.isSome_iff_ne_none.2 hp
    simp only [hl, hp', if_true]
    rw [← hd, ← hs, ← hc]

theorem State.planItems_ascending (s : State) : s.planItems.Pairwise fun a b => a.index < b.index := by
  unfold State.planItems allLeases
  rw [List.pairwise_filterMap]
  refine (List.pairwise_lt_finRange 128).imp fun {i j} hij a ha b hb => ?_
  have index_of {k : LeaseIndex} {x : PlanItem} (hx : (match s.lease? k with
      | some l => if l.active.placed then some (⟨k, l.direction, l.source, l.active⟩ : PlanItem) else none
      | none => none) = some x) : x.index = k := by
    split at hx
    · split at hx <;> cases hx
      rfl
    · cases hx
  rw [index_of ha, index_of hb]
  exact hij

theorem State.orderedItems_sorted (s : State) : (orderItems s.planItems).Pairwise fun a b => a.before b = true :=
  orderItems_sorted (s.planItems_ascending.imp fun h => ne_of_lt h)

theorem State.mem_orderedItems {s : State} {a : PlanItem} : a ∈ orderItems s.planItems ↔ s.TakesPart a :=
  (orderItems_perm _).mem_iff.trans State.mem_planItems

theorem State.TakesPart.eq_of_index {s : State} {a b : PlanItem} (ha : s.TakesPart a) (hb : s.TakesPart b)
    (h : a.index = b.index) : a = b := by
  obtain ⟨l, hl, -, hd, hs, hc⟩ := ha
  obtain ⟨m, hm, -, hd', hs', hc'⟩ := hb
  obtain rfl : l = m := Option.some.inj (hl.symm.trans (h ▸ hm))
  cases a
  cases b
  simp_all

/-! ## First-fit along the order -/

/-- The offset of an item is one at which it fits, clear of the items of a plan that the order puts before it. -/
def PlanItem.Clear (plan : List (PlanItem × Nat)) (a : PlanItem) (x : Nat) : Prop :=
  x + a.config.cost ≤ 440
    ∧ ∀ b q, (b, q) ∈ plan → b.direction = a.direction → b.before a = true →
      (a.config.runAt a.direction a.source x).Apart (b.config.runAt b.direction b.source q)

/-- The lowest offset that is clear. -/
def PlanItem.LowestClear (plan : List (PlanItem × Nat)) (a : PlanItem) (o : Nat) : Prop :=
  PlanItem.Clear plan a o ∧ ∀ x, x < o → ¬PlanItem.Clear plan a x

theorem PlanItem.LowestClear.unique {plan : List (PlanItem × Nat)} {a : PlanItem} {o o' : Nat}
    (h : PlanItem.LowestClear plan a o) (h' : PlanItem.LowestClear plan a o') : o = o' := by
  rcases Nat.lt_trichotomy o o' with hlt | rfl | hlt
  · exact absurd h.1 (h'.2 o hlt)
  · rfl
  · exact absurd h'.1 (h.2 o' hlt)

theorem mem_plannedRuns {done : List (PlanItem × Nat)} {d : Direction} {r : Run} : r ∈ plannedRuns done d
    ↔ ∃ b q, (b, q) ∈ done ∧ b.direction = d ∧ r = b.config.runAt b.direction b.source q := by
  unfold plannedRuns
  simp only [List.mem_filterMap, Prod.exists]
  refine exists₂_congr fun b q => and_congr_right fun _ => ?_
  by_cases hd : b.direction = d
  · subst hd
    simp [eq_comm]
  · simp [hd]

/-- The search's test against the items that are already planned, all of which the order puts before the next. -/
theorem fitsAmong_planned_iff {done plan : List (PlanItem × Nat)} {a : PlanItem}
    (hdone : ∀ b q, (b, q) ∈ done ↔ (b, q) ∈ plan ∧ b.before a = true) (x : Nat) :
    fitsAmong (plannedRuns done a.direction) (a.config.runAt a.direction a.source x) = true ↔ PlanItem.Clear plan a x := by
  unfold fitsAmong PlanItem.Clear
  rw [Bool.and_eq_true, decide_eq_true_eq, List.all_eq_true]
  refine and_congr Iff.rfl ⟨fun h b q hb hd hbef => ?_, fun h r hr => ?_⟩
  · have := h _ (mem_plannedRuns.2 ⟨b, q, (hdone b q).2 ⟨hb, hbef⟩, hd, rfl⟩)
    exact (Run.meets_eq_false_iff _ _).1 (by simpa using this)
  · obtain ⟨b, q, hb, hd, rfl⟩ := mem_plannedRuns.1 hr
    obtain ⟨hb, hbef⟩ := (hdone b q).1 hb
    simpa using (Run.meets_eq_false_iff _ _).2 (h b q hb hd hbef)

theorem firstFit_planned_some {done plan : List (PlanItem × Nat)} {a : PlanItem}
    (hdone : ∀ b q, (b, q) ∈ done ↔ (b, q) ∈ plan ∧ b.before a = true) {o : Nat}
    (h : firstFit (plannedRuns done a.direction) a.direction a.source a.config = some o) : PlanItem.LowestClear plan a o := by
  unfold firstFit at h
  rw [List.find?_eq_some_iff_getElem] at h
  obtain ⟨h1, k, hk, rfl, h2⟩ := h
  simp only [List.getElem_range] at h1 h2 ⊢
  refine ⟨(fitsAmong_planned_iff hdone k).1 h1, fun x hx hc => ?_⟩
  have := h2 x hx
  rw [(fitsAmong_planned_iff hdone x).2 hc] at this
  cases this

/-- A run of no bits meets nothing. -/
theorem Run.apart_of_cost_zero {a b : Run} (h : a.cost = 0) : a.Apart b := by
  rintro hop bit ⟨⟨-, -, h1, h2⟩, -⟩
  omega

theorem firstFit_planned_none {done plan : List (PlanItem × Nat)} {a : PlanItem}
    (hdone : ∀ b q, (b, q) ∈ done ↔ (b, q) ∈ plan ∧ b.before a = true)
    (h : firstFit (plannedRuns done a.direction) a.direction a.source a.config = none) (x : Nat) :
    ¬PlanItem.Clear plan a x := by
  unfold firstFit at h
  rw [List.find?_eq_none] at h
  have none_below (y : Nat) (hy : y < 440) : ¬PlanItem.Clear plan a y := fun hc =>
    h y (List.mem_range.2 hy) ((fitsAmong_planned_iff hdone y).2 hc)
  intro hc
  by_cases hcost : a.config.cost = 0
  · exact none_below 0 (by omega) ⟨by omega, fun b q _ _ _ => Run.apart_of_cost_zero hcost⟩
  · exact none_below x (by have := hc.1; omega) hc

/-- Every item of the list has the offset that first-fit finds against the items behind it. -/
def Planned : List (PlanItem × Nat) → Prop
  | [] => True
  | (p, o) :: rest => firstFit (plannedRuns rest p.direction) p.direction p.source p.config = some o ∧ Planned rest

theorem planFrom_some {ps : List PlanItem} {done plan : List (PlanItem × Nat)} (h : planFrom done ps = some plan)
    (hd : Planned done) : Planned plan ∧ plan.map Prod.fst = ps.reverse ++ done.map Prod.fst := by
  induction ps generalizing done with
  | nil => cases h; exact ⟨hd, rfl⟩
  | cons p ps ih =>
    unfold planFrom at h
    split at h
    · next o ho =>
      obtain ⟨hp, hm⟩ := ih h ⟨ho, hd⟩
      exact ⟨hp, by simp [hm]⟩
    · cases h

theorem planFrom_none {ps : List PlanItem} {done : List (PlanItem × Nat)} (h : planFrom done ps = none) :
    ∃ pre p post plan, ps = pre ++ p :: post ∧ planFrom done pre = some plan
      ∧ firstFit (plannedRuns plan p.direction) p.direction p.source p.config = none := by
  induction ps generalizing done with
  | nil => cases h
  | cons p ps ih =>
    unfold planFrom at h
    split at h
    · next o ho =>
      obtain ⟨pre, q, post, plan, rfl, hpre, hq⟩ := ih h
      exact ⟨p :: pre, q, post, plan, rfl, by simp [planFrom, ho, hpre], hq⟩
    · next ho => exact ⟨[], p, ps, done, rfl, rfl, ho⟩

/-- In a list of items with the later ones first, each planned item has the lowest clear offset. -/
theorem Planned.lowestClear_append {later rest : List (PlanItem × Nat)} (h : Planned rest)
    (hs : ((later ++ rest).map Prod.fst).Pairwise fun a b => b.before a = true) {a : PlanItem} {o : Nat} (ha : (a, o) ∈ rest) :
    PlanItem.LowestClear (later ++ rest) a o := by
  induction rest generalizing later with
  | nil => cases ha
  | cons x rest ih =>
    obtain ⟨p, q⟩ := x
    obtain ⟨hfit, hrest⟩ := h
    rcases List.mem_cons.1 ha with hpa | ha
    · cases hpa
      refine firstFit_planned_some (done := rest) (fun b r => ?_) hfit
      rw [List.map_append, List.map_cons, List.pairwise_append, List.pairwise_cons] at hs
      obtain ⟨-, ⟨hbehind, -⟩, hlater⟩ := hs
      simp only [List.mem_append, List.mem_cons, Prod.mk.injEq]
      constructor
      · exact fun hb => ⟨.inr (.inr hb), hbehind b (List.mem_map_of_mem hb)⟩
      · rintro ⟨hb | ⟨rfl, rfl⟩ | hb, hbef⟩
        · have hab := hlater b (List.mem_map_of_mem hb) a List.mem_cons_self
          exact absurd (PlanItem.before_trans hbef hab) (by simp [PlanItem.before_irrefl])
        · exact absurd hbef (by simp [PlanItem.before_irrefl])
        · exact hb
    · rw [List.append_cons] at hs ⊢
      exact ih hrest hs ha

theorem Planned.lowestClear {plan : List (PlanItem × Nat)} (h : Planned plan)
    (hs : (plan.map Prod.fst).Pairwise fun a b => b.before a = true) {a : PlanItem} {o : Nat} (ha : (a, o) ∈ plan) :
    PlanItem.LowestClear plan a o := h.lowestClear_append (later := []) hs ha

/-! ## The plan -/

/-- The plan holds every lease that takes part, the later ones first. -/
theorem State.repackPlan_some {s : State} {plan : List (PlanItem × Nat)} (h : s.repackPlan = some plan) :
    Planned plan ∧ plan.map Prod.fst = (orderItems s.planItems).reverse := by
  obtain ⟨hp, hm⟩ := planFrom_some h trivial
  exact ⟨hp, by simpa using hm⟩

theorem State.repackPlan_mem {s : State} {plan : List (PlanItem × Nat)} (h : s.repackPlan = some plan) {a : PlanItem} :
    (∃ o, (a, o) ∈ plan) ↔ s.TakesPart a := by
  have : (∃ o, (a, o) ∈ plan) ↔ a ∈ plan.map Prod.fst := by simp
  rw [this, (State.repackPlan_some h).2, List.mem_reverse, State.mem_orderedItems]

theorem State.repackPlan_sorted {s : State} {plan : List (PlanItem × Nat)} (h : s.repackPlan = some plan) :
    (plan.map Prod.fst).Pairwise fun a b => b.before a = true := by
  rw [(State.repackPlan_some h).2, List.pairwise_reverse]
  exact s.orderedItems_sorted

theorem State.repackPlan_lowestClear {s : State} {plan : List (PlanItem × Nat)} (h : s.repackPlan = some plan)
    {a : PlanItem} {o : Nat} (ha : (a, o) ∈ plan) : PlanItem.LowestClear plan a o :=
  (State.repackPlan_some h).1.lowestClear (State.repackPlan_sorted h) ha

theorem State.repackPlan_unique {s : State} {plan : List (PlanItem × Nat)} (h : s.repackPlan = some plan)
    {a b : PlanItem} {o q : Nat} (ha : (a, o) ∈ plan) (hb : (b, q) ∈ plan) (hi : a.index = b.index) : (a, o) = (b, q) := by
  obtain rfl : a = b := ((State.repackPlan_mem h).1 ⟨o, ha⟩).eq_of_index ((State.repackPlan_mem h).1 ⟨q, hb⟩) hi
  rw [(State.repackPlan_lowestClear h ha).unique (State.repackPlan_lowestClear h hb)]

/-- The items that the order puts before one that does not fit, each at its lowest clear offset. -/
def State.StuckAt (s : State) (a : PlanItem) (plan : List (PlanItem × Nat)) : Prop :=
  s.TakesPart a ∧ (∀ b, (∃ q, (b, q) ∈ plan) ↔ s.TakesPart b ∧ b.before a = true)
    ∧ (∀ b q, (b, q) ∈ plan → PlanItem.LowestClear plan b q) ∧ ∀ x, ¬PlanItem.Clear plan a x

theorem State.repackPlan_none {s : State} (h : s.repackPlan = none) : ∃ a plan, s.StuckAt a plan := by
  obtain ⟨pre, a, post, plan, hsplit, hpre, hfit⟩ := planFrom_none h
  obtain ⟨hp, hm⟩ := planFrom_some hpre trivial
  have hsorted := s.orderedItems_sorted
  rw [hsplit, List.pairwise_append, List.pairwise_cons] at hsorted
  obtain ⟨hpreSorted, ⟨hpost, -⟩, hbefore⟩ := hsorted
  have hmem (b : PlanItem) : (∃ q, (b, q) ∈ plan) ↔ b ∈ pre := by
    have : (∃ q, (b, q) ∈ plan) ↔ b ∈ plan.map Prod.fst := by simp
    rw [this, hm]
    simp
  have hpart (b : PlanItem) : s.TakesPart b ↔ b ∈ pre ∨ b = a ∨ b ∈ post := by
    rw [← State.mem_orderedItems, hsplit, List.mem_append, List.mem_cons]
  have hall (b : PlanItem) (q : Nat) (hb : (b, q) ∈ plan) : b.before a = true :=
    hbefore b ((hmem b).1 ⟨q, hb⟩) a List.mem_cons_self
  refine ⟨a, plan, (hpart a).2 (.inr (.inl rfl)), fun b => ?_, fun b q hb => hp.lowestClear ?_ hb,
    firstFit_planned_none (fun b q => ⟨fun hb => ⟨hb, hall b q hb⟩, And.left⟩) hfit⟩
  · rw [hmem, hpart]
    constructor
    · exact fun hb => ⟨.inl hb, hbefore b hb a List.mem_cons_self⟩
    · rintro ⟨hb | rfl | hb, hba⟩
      · exact hb
      · exact absurd hba (by simp [PlanItem.before_irrefl])
      · exact absurd (PlanItem.before_trans hba (hpost b hb)) (by simp [PlanItem.before_irrefl])
  · rw [hm, List.map_nil, List.append_nil, List.pairwise_reverse]
    exact hpreSorted

/-- First-fit along the order has one outcome: what a plan gives the items before the stuck one is what it was given. -/
theorem State.StuckAt.agrees {s : State} {a : PlanItem} {stuck plan : List (PlanItem × Nat)} (h : s.StuckAt a stuck)
    (hp : s.repackPlan = some plan) (rest : List (PlanItem × Nat)) :
    ∀ later, plan = later ++ rest → ∀ b q, (b, q) ∈ rest → b.before a = true → (b, q) ∈ stuck := by
  obtain ⟨-, hmem, hlow, -⟩ := h
  have hsorted := State.repackPlan_sorted hp
  induction rest with
  | nil => intro _ _ b q hb; cases hb
  | cons x rest ih =>
    intro later heq b q hb hba
    have ih := ih (later ++ [x]) (by simp [heq])
    rcases List.mem_cons.1 hb with rfl | hb
    · have hin : (b, q) ∈ plan := by simp [heq]
      obtain ⟨q', hq'⟩ := (hmem b).2 ⟨(State.repackPlan_mem hp).1 ⟨q, hin⟩, hba⟩
      have hbehind (c : PlanItem) (r : Nat) (hc : (c, r) ∈ plan) (hcb : c.before b = true) : (c, r) ∈ rest := by
        rw [heq, List.map_append, List.map_cons, List.pairwise_append, List.pairwise_cons] at hsorted
        rw [heq, List.mem_append, List.mem_cons] at hc
        rcases hc with hc | hc | hc
        · exact absurd (PlanItem.before_trans hcb (hsorted.2.2 c (List.mem_map_of_mem hc) b List.mem_cons_self))
            (by simp [PlanItem.before_irrefl])
        · cases hc
          exact absurd hcb (by simp [PlanItem.before_irrefl])
        · exact hc
      have same (c : PlanItem) (r : Nat) (hcb : c.before b = true) : (c, r) ∈ plan ↔ (c, r) ∈ stuck := by
        have hca := PlanItem.before_trans hcb hba
        refine ⟨fun hc => ih c r (hbehind c r hc hcb) hca, fun hc => ?_⟩
        obtain ⟨r', hr'⟩ := (State.repackPlan_mem hp).2 ((hmem c).1 ⟨r, hc⟩).1
        rwa [(hlow c r hc).unique (hlow c r' (ih c r' (hbehind c r' hr' hcb) hca))]
      have clear_iff (x : Nat) : PlanItem.Clear plan b x ↔ PlanItem.Clear stuck b x :=
        and_congr_right fun _ => forall₂_congr fun c r =>
          ⟨fun h hc hd hcb => h ((same c r hcb).2 hc) hd hcb, fun h hc hd hcb => h ((same c r hcb).1 hc) hd hcb⟩
      obtain ⟨hclear, hmin⟩ := State.repackPlan_lowestClear hp hin
      have hlow' : PlanItem.LowestClear stuck b q := ⟨(clear_iff q).1 hclear, fun x hx hc => hmin x hx ((clear_iff x).2 hc)⟩
      rwa [hlow'.unique (hlow b q' hq')]
    · exact ih b q hb hba

theorem State.StuckAt.repackPlan {s : State} {a : PlanItem} {stuck : List (PlanItem × Nat)} (h : s.StuckAt a stuck) :
    s.repackPlan = none := by
  by_contra hne
  obtain ⟨plan, hp⟩ := Option.ne_none_iff_exists'.1 hne
  have hagrees := h.agrees hp plan [] rfl
  obtain ⟨hpart, hmem, hlow, hstuck⟩ := h
  obtain ⟨o, ho⟩ := (State.repackPlan_mem hp).2 hpart
  obtain ⟨⟨hin, hclear⟩, -⟩ := State.repackPlan_lowestClear hp ho
  refine hstuck o ⟨hin, fun b q hb hd hba => ?_⟩
  obtain ⟨q', hq'⟩ := (State.repackPlan_mem hp).2 ((hmem b).1 ⟨q, hb⟩).1
  rw [(hlow b q hb).unique (hlow b q' (hagrees b q' hq' hba))]
  exact hclear b q' hq' hd hba

/-- Settles O27: the plan is built item by item along the order, and a run of first-fit that gets stuck gets stuck the same
way in every plan. -/
theorem repackPlanIsFirstFitInOrder : Obligations.RepackPlanIsFirstFitInOrder := by
  unfold Obligations.RepackPlanIsFirstFitInOrder
  intro clear s takesPart
  refine ⟨fun plan hp => ⟨fun a => State.repackPlan_mem hp, fun a o ha b q hb => State.repackPlan_unique hp ha hb,
    fun a o ha => State.repackPlan_lowestClear hp ha⟩, ⟨fun h => ?_, ?_⟩, fun a b => PlanItem.before_iff⟩
  · obtain ⟨a, plan, h⟩ := State.repackPlan_none h
    exact ⟨a, plan, h⟩
  · rintro ⟨a, plan, h⟩
    exact State.StuckAt.repackPlan (a := a) (stuck := plan) h

/-! ## The leases that a plan moves (R40) -/

theorem State.movedTo_iff {s : State} {plan : List (PlanItem × Nat)} (hp : s.repackPlan = some plan) {i : LeaseIndex} {o : Nat} :
    movedTo plan i = some o ↔ ∃ a, (a, o) ∈ plan ∧ a.index = i ∧ a.config.placement ≠ some o := by
  unfold movedTo
  constructor
  · intro h
    split at h
    · next q hq =>
      split at h <;> cases h
      next hne => exact ⟨q.1, List.mem_of_find?_eq_some hq, by simpa using List.find?_some hq, hne⟩
    · cases h
  · rintro ⟨a, ha, hi, hne⟩
    cases hf : plan.find? fun q => q.1.index == i with
    | none => exact absurd hi (by simpa using List.find?_eq_none.1 hf (a, o) ha)
    | some q =>
      obtain ⟨b, r⟩ := q
      have hb : b.index = i := by simpa using List.find?_some hf
      have heq := State.repackPlan_unique hp ha (List.mem_of_find?_eq_some hf) (hi.trans hb.symm)
      cases heq
      simp [hne]

/-- A moved lease has a placed active configuration, which fits into the region at its new offset. -/
theorem State.movedTo_lease {s : State} {plan : List (PlanItem × Nat)} (hp : s.repackPlan = some plan) {i : LeaseIndex} {o : Nat}
    (h : movedTo plan i = some o) : ∃ l, s.lease? i = some l ∧ l.active.placement ≠ none ∧ o + l.active.cost ≤ 440 := by
  obtain ⟨a, ha, rfl, -⟩ := (State.movedTo_iff hp).1 h
  obtain ⟨l, hl, hpl, -, -, hc⟩ := (State.repackPlan_mem hp).1 ⟨o, ha⟩
  exact ⟨l, hl, hpl, hc ▸ (State.repackPlan_lowestClear hp ha).1.1⟩

theorem State.repackBlocked_eq_false_iff {s : State} :
    s.repackBlocked = false ↔ ∀ i l, s.lease? i = some l → l.staged = none ∧ l.mark = none := by
  unfold State.repackBlocked allLeases
  rw [List.any_eq_false]
  simp only [List.mem_finRange, true_implies, any_iff, not_exists, not_and, Bool.or_eq_true, not_or, Bool.not_eq_true,
    Option.isSome_eq_false_iff, Option.isNone_iff_eq_none]

end Sys2Proof.Machine
end

section
/-! PROOFS. How the Lease Table and the attention set move: the changes that an event makes to a lease, the reasons it
raises, and what every command but a CREATE leaves of both (R2, R3, R21, R166, R167). -/

namespace Sys2Proof.Machine

/-! ## The changes of one lease -/

/-- What an event in the midst of the frames makes of a lease: a mark, a renewal, flags, a smaller listener set. -/
inductive Lease.Tends (l : Lease) : Lease → Prop
  | marked (cause : Cause) (from_ : l.mark = none ∨ l.mark = some ⟨.expired, .staged⟩) :
      l.Tends { l with mark := some ⟨cause, .staged⟩ }
  | renewed (n : FrameNumber) (t : Term) (from_ : l.mark = none ∨ l.mark = some ⟨.expired, .staged⟩)
      (standing : t = 0 → l.owner = 0 ∨ l.term = 0) :
      l.Tends { l with mark := none, term := t, expiry := expiryFrom n t }
  | flagged (listenOpen shapeOpen heard : Bool) (parityFaults : Byte) :
      l.Tends { l with listenOpen, shapeOpen, heard, parityFaults }
  | reduced (left : Listeners) (live : l.mark = none) (sub : ∀ p, hasListener left p = true → hasListener l.latest.listeners p = true) :
      l.Tends (l.adopt (l.latest.shrunkTo left))
  | cleaned (left : Listeners) (stays : l.state ≠ .going)
      (sub : ∀ p, hasListener left p = true → hasListener l.latest.listeners p = true) :
      l.Tends { l with staged := some (l.latest.shrunkTo left) }

/-- Everything that an event makes of a lease which stays in its entry, but for a SHAPE, a new listener and a binding. -/
inductive Lease.Changes (l : Lease) : Lease → Prop
  | tends (l' : Lease) (tend : l.Tends l') : l.Changes l'
  | retireSealed (cause : Cause) (from_ : l.mark = some ⟨cause, .staged⟩) :
      l.Changes { l with sealed := some .retirement, staged := none, mark := some ⟨cause, .sealed⟩ }
  | configSealed (c : Configuration) (live : l.mark = none) (staged : l.staged = some c) :
      l.Changes { l with sealed := some (.config c), staged := none }
  | moved (o : Nat) (live : l.mark = none) (staged : l.staged = none) (placed : l.active.placement ≠ none)
      (within : o + l.active.cost ≤ 440) : l.Changes { l with sealed := some (.config (l.movedConfig o)) }
  | applied (c : Configuration) (sealed_ : l.sealed = some (.config c)) : l.Changes { l with active := c, sealed := none }
  | settled (c : Configuration) (live : l.mark = none) (staged : l.staged = some c) (unplaced : c.placement = none)
      (bare : l.active.placement = none) : l.Changes { l with active := c, staged := none }
  | stopped (live : l.mark = none) : l.Changes { l with active := l.active.unplaced, sealed := none, staged := none }

/-- Everything that an event makes of a lease which stays in its entry. -/
inductive Lease.Moves (l : Lease) : Lease → Prop
  | changes (l' : Lease) (change : l.Changes l') : l.Moves l'
  | adopts (c : Configuration) : l.Moves (l.adopt c)
  | binds (base : Option Channel) : l.Moves { l with base }

theorem Lease.adopt_identity (l : Lease) (c : Configuration) : (l.adopt c).stream = l.stream ∧ (l.adopt c).owner = l.owner
    ∧ (l.adopt c).source = l.source ∧ (l.adopt c).direction = l.direction := by
  unfold Lease.adopt
  split <;> exact ⟨rfl, rfl, rfl, rfl⟩

/-- No event changes who a lease belongs to and what it carries (R4). -/
theorem Lease.Moves.identity {l l' : Lease} (h : l.Moves l') :
    l'.stream = l.stream ∧ l'.owner = l.owner ∧ l'.source = l.source ∧ l'.direction = l.direction := by
  cases h with
  | changes _ h =>
    cases h with
    | tends _ h =>
      cases h with
      | reduced left => exact l.adopt_identity _
      | _ => exact ⟨rfl, rfl, rfl, rfl⟩
    | _ => exact ⟨rfl, rfl, rfl, rfl⟩
  | adopts c => exact l.adopt_identity c
  | binds => exact ⟨rfl, rfl, rfl, rfl⟩

/-! ## The course of one entry -/

/-- The course of a lease: how an event may change it, and which lease it may end. -/
structure Course where
  change : Lease → Lease → Prop
  ends   : Lease → Prop

/-- The course of a lease in the midst of the frames: it ends only with nothing in flight (R16). -/
def Course.calm : Course := ⟨Lease.Tends, fun l => l.sealed = none⟩

/-- The course of a lease, but for a SHAPE, a new listener and a binding. -/
def Course.ordinary : Course := ⟨Lease.Changes, fun _ => True⟩

/-- The course of a lease in any command. -/
def Course.whole : Course := ⟨Lease.Moves, fun _ => True⟩

/-- One course is an instance of the other. -/
structure Course.Le (C D : Course) : Prop where
  change : ∀ l l', C.change l l' → D.change l l'
  ends   : ∀ l, C.ends l → D.ends l

theorem Course.calm_le : Course.calm.Le Course.ordinary := ⟨fun _ l' h => .tends l' h, fun _ _ => trivial⟩
theorem Course.ordinary_le : Course.ordinary.Le Course.whole := ⟨fun _ l' h => .changes l' h, fun _ _ => trivial⟩
theorem Course.calm_le_whole : Course.calm.Le Course.whole := ⟨fun _ l' h => .changes l' (.tends l' h), fun _ _ => trivial⟩

/-- An entry goes on: its lease changes as the course allows, or leaves it FREE for good. -/
inductive Entry.Evolves (C : Course) : Entry → Entry → Prop
  | stays (e : Entry) : e.Evolves C e
  | change (e : Entry) (l l' : Lease) (held : e.lease = some l) (change : C.change l l') : e.Evolves C { e with lease := some l' }
  | freed (e : Entry) (l : Lease) (held : e.lease = some l) (ends : C.ends l) : e.Evolves C e.freed
  | trans {a b c : Entry} (first : a.Evolves C b) (next : b.Evolves C c) : a.Evolves C c

section
variable {C : Course} {e e' : Entry}

theorem Entry.Evolves.mono {D : Course} (hle : C.Le D) (h : e.Evolves C e') : e.Evolves D e' := by
  induction h with
  | stays e => exact .stays e
  | change e l l' hl hr => exact .change e l l' hl (hle.change l l' hr)
  | freed e l hl he => exact .freed e l hl (hle.ends l he)
  | trans _ _ ih ih' => exact .trans ih ih'

/-- A FREE entry stays as it is. -/
theorem Entry.Evolves.of_free (h : e.Evolves C e') (hf : e.lease = none) : e' = e := by
  induction h with
  | stays e => rfl
  | change e l l' hl => rw [hf] at hl; cases hl
  | freed e l hl => rw [hf] at hl; cases hl
  | trans _ _ ih ih' =>
    have hab := ih hf
    subst hab
    exact ih' hf

/-- A lease that is still there has a history of changes, and its handle is the one it had. -/
theorem Entry.Evolves.held (h : e.Evolves C e') {l' : Lease} (hl : e'.lease = some l') :
    e'.generation = e.generation ∧ ∃ l, e.lease = some l ∧ Relation.ReflTransGen C.change l l' := by
  induction h generalizing l' with
  | stays e => exact ⟨rfl, l', hl, .refl⟩
  | change e l l'' hh hr => cases hl; exact ⟨rfl, l, hh, .single hr⟩
  | freed e l hh => cases hl
  | trans _ _ ih ih' =>
    obtain ⟨hg', m, hm, hr'⟩ := ih' hl
    obtain ⟨hg, l, hl, hr⟩ := ih hm
    exact ⟨hg'.trans hg, l, hl, hr.trans hr'⟩

/-- A lease goes FREE at most once, and with that the generation advances by one (R3). -/
theorem Entry.Evolves.lost (h : e.Evolves C e') {l : Lease} (hl : e.lease = some l) (hn : e'.lease = none) :
    e' = ⟨e.generation + 1, none⟩ := by
  induction h generalizing l with
  | stays e => rw [hl] at hn; cases hn
  | change => cases hn
  | freed => rfl
  | @trans a b c hab hbc ih ih' =>
    cases hb : b.lease with
    | none =>
      have hcb := hbc.of_free hb
      subst hcb
      exact ih hl hb
    | some m => rw [ih' hb hn, (hab.held hb).1]

end

/-! ## What the device keeps of entries and items -/

/-- The device goes on from one state to another: every entry as the course allows, reasons raised with the handle of a lease
that is there, no item fetched, and the device item raised for its two reasons only (R163, R166). -/
structure State.Follows (C : Course) (s t : State) : Prop where
  entries : ∀ i : LeaseIndex, s.leases[i].Evolves C t.leases[i]
  items   : ∀ i : LeaseIndex, ∃ rs : List Reasons, (∀ r ∈ rs, r ≠ 0) ∧ (s.lease? i = none → rs = [])
    ∧ t.attention.leases[i] = raiseItems s.attention.leases[i] s.leases[i].generation rs
  members : ∀ k : Fin 15, ∃ r, t.attention.members[k] = s.attention.members[k] ||| r
  device  : ∃ r, t.attention.device = s.attention.device ||| r ∧ r &&& ~~~(Reason.setApplied ||| Reason.linkLost) = 0

section
variable {C : Course} {s t u : State}

theorem State.Follows.of_eq (hl : t.leases = s.leases) (ha : t.attention = s.attention) : s.Follows C t where
  entries i := by rw [hl]; exact .stays _
  items i := ⟨[], by simp, fun _ => rfl, by rw [ha]; rfl⟩
  members k := ⟨0, by simp [ha]⟩
  device := ⟨0, by simp [ha]⟩

theorem State.Follows.refl (s : State) : s.Follows C s := .of_eq rfl rfl

theorem State.Follows.trans (h : s.Follows C t) (h' : t.Follows C u) : s.Follows C u where
  entries i := (h.entries i).trans (h'.entries i)
  items i := by
    obtain ⟨rs, hrs, hn, hi⟩ := h.items i
    obtain ⟨rs', hrs', hn', hi'⟩ := h'.items i
    cases ht : t.lease? i with
    | none =>
      refine ⟨rs, hrs, hn, ?_⟩
      rw [hi', hn' ht, hi]
      rfl
    | some l =>
      obtain ⟨hg, m, hm, -⟩ := (h.entries i).held ht
      refine ⟨rs ++ rs', fun r hr => (List.mem_append.1 hr).elim (hrs r) (hrs' r), fun hs => ?_, ?_⟩
      · exact absurd (hs.symm.trans hm) (by simp)
      · rw [hi', hi, hg]
        simp [raiseItems]
  members k := by
    obtain ⟨r, hr⟩ := h.members k
    obtain ⟨r', hr'⟩ := h'.members k
    exact ⟨r ||| r', by rw [hr', hr, BitVec.or_assoc]⟩
  device := by
    obtain ⟨r, hr, hz⟩ := h.device
    obtain ⟨r', hr', hz'⟩ := h'.device
    refine ⟨r ||| r', by rw [hr', hr, BitVec.or_assoc], ?_⟩
    revert hz hz'
    clear hr hr'
    revert r r'
    decide

theorem State.Follows.mono {D : Course} (hle : C.Le D) (h : s.Follows C t) : s.Follows D t :=
  ⟨fun i => (h.entries i).mono hle, h.items, h.members, h.device⟩

end

/-! ## Events on entries -/

/-- An event makes the entry go on, and raises reasons on a lease that is there only. -/
structure Entry.Takes (C : Course) (e : Entry) (ev : EntryEvent) : Prop where
  entry  : e.Evolves C ev.entry
  raised : ∀ r ∈ ev.raised, r ≠ 0
  free   : e.lease = none → ev.raised = []

section
variable {C : Course} {e : Entry} {l l' : Lease}

theorem Entry.Takes.unchanged (e : Entry) : e.Takes C (.unchanged e) := ⟨.stays e, by simp [EntryEvent.unchanged], fun _ => rfl⟩

theorem Entry.Takes.put (hl : e.lease = some l) (hr : C.change l l') : e.Takes C (e.put l') :=
  ⟨.change e l l' hl hr, by simp [Entry.put], fun _ => rfl⟩

theorem Entry.Takes.stage (hl : e.lease = some l) (hr : C.change l l') : e.Takes C (e.stage l') :=
  ⟨.change e l l' hl hr, by simp [Entry.stage], fun _ => rfl⟩

theorem Entry.Takes.free' (hl : e.lease = some l) (he : C.ends l) (byHost : Bool) : e.Takes C (e.free byHost) where
  entry := .freed e l hl he
  raised := by cases byHost <;> simp [Entry.free, Reason.retired]
  free h := absurd (h.symm.trans hl) (by simp)

theorem Entry.Takes.raising (hl : e.lease = some l) {ev : EntryEvent} (h : e.Takes C ev) {r : Reasons} (hr : r ≠ 0) :
    e.Takes C (ev.raising r) where
  entry := h.entry
  raised := by simpa only [EntryEvent.raising, List.forall_mem_cons] using ⟨hr, h.raised⟩
  free hn := absurd (hn.symm.trans hl) (by simp)

theorem Entry.Takes.andThen {ev : EntryEvent} {f : Entry → EntryEvent} (h : e.Takes C ev) (h' : ev.entry.Takes C (f ev.entry)) :
    e.Takes C (ev.andThen f) where
  entry := h.entry.trans h'.entry
  raised r hr := (List.mem_append.1 hr).elim (h.raised r) (h'.raised r)
  free hn := by
    have he : ev.entry = e := h.entry.of_free hn
    have hn' : ev.entry.lease = none := by rw [he, hn]
    simp [EntryEvent.andThen, h.free hn, h'.free hn']

theorem Entry.Takes.retireLive (hl : e.lease = some l) (hm : l.mark = none) (cause : Cause) :
    e.Takes Course.calm (retireLive e l cause) := by
  unfold Machine.retireLive
  split
  · next h => exact .free' hl (Lease.retiresAtOnce_iff.1 h).2.1 _
  · exact .stage hl (.marked cause (.inl hm))

theorem Lease.renewed_tends {n : FrameNumber} {t : Term} (hr : l.renewed n t = some l')
    (ht : t = 0 → l.owner = 0 ∨ l.term = 0) : l.Tends l' := by
  unfold Lease.renewed at hr
  split at hr
  · next hm => cases hr; simpa only [hm] using Lease.Tends.renewed n t (.inl hm) ht
  · next hm => cases hr; exact .renewed n t (.inr hm) ht
  · cases hr

theorem Entry.takes_expire (n : FrameNumber) (e : Entry) : e.Takes Course.calm (expireEntry n e) := by
  unfold expireEntry
  split
  · next l hl =>
    split
    · next h => exact .raising hl (.retireLive hl h.2 _) (by decide)
    · exact .unchanged e
  · exact .unchanged e

theorem Entry.takes_seal (e : Entry) : e.Takes Course.ordinary (sealEntry e) := by
  unfold sealEntry
  split
  · next l hl =>
    split
    · next q hq =>
      refine .put hl ?_
      unfold Lease.sealing at hq
      split at hq
      · next hm => cases hq; exact .retireSealed _ hm
      · cases hq
      · next hm =>
        split at hq <;> cases hq
        next c hc => exact .configSealed c hm hc
    · exact .unchanged e
  · exact .unchanged e

theorem Entry.takes_applyDelta (e : Entry) : e.Takes Course.ordinary (applyDelta e) := by
  unfold applyDelta
  split
  · next l hl =>
    split
    · next c hs => exact .put hl (.applied c hs)
    · exact .free' hl trivial _
    · exact .unchanged e
  · exact .unchanged e

theorem Entry.takes_settle (e : Entry) : e.Takes Course.ordinary (settleEntry e) := by
  unfold settleEntry
  split
  · next l hl =>
    split
    · split
      · exact .free' hl trivial _
      · exact .unchanged e
    · exact .unchanged e
    · next hm =>
      split
      · next c hc =>
        split
        · next h => exact .put hl (.settled c hm hc (by simpa [Configuration.placed] using h.2) (by simpa [Configuration.placed] using h.1))
        · exact .unchanged e
      · exact .unchanged e
  · exact .unchanged e

theorem Entry.takes_apply (set : ChangeSet) (i : LeaseIndex) (e : Entry) : e.Takes Course.ordinary (applyEntry set i e) := by
  unfold applyEntry
  refine .andThen ?_ (Entry.takes_settle _)
  split
  · exact e.takes_applyDelta
  · exact .unchanged e

theorem Entry.takes_orphan (lost : Position → Bool) (e : Entry) : e.Takes Course.calm (orphanEntry lost e) := by
  unfold orphanEntry
  split
  · next l hl =>
    split
    · split
      · next hm => exact .raising hl (.retireLive hl hm _) (by decide)
      · next hm => exact .raising hl (.put hl (Lease.Tends.marked _ (.inr hm))) (by decide)
      · exact .unchanged e
    · exact .unchanged e
  · exact .unchanged e

theorem hasListener_withoutListener (l : Listeners) (p q : Position) :
    hasListener (withoutListener l p) q = (hasListener l q && decide (q ≠ p)) := by
  unfold hasListener withoutListener
  rw [BitVec.getLsbD_and, BitVec.getLsbD_not, BitVec.getLsbD_twoPow]
  by_cases h : q = p
  · simp [h]
  · have hv : p.val ≠ q.val := fun hv => h (Fin.ext hv).symm
    simp [h, hv]

theorem mem_memberPositions {p : Position} : p ∈ memberPositions ↔ p ≠ 0 := by revert p; decide

theorem hasListener_withoutLost (lost : Position → Bool) (l : Listeners) (q : Position) :
    hasListener (withoutLost lost l) q = (hasListener l q && !(decide (q ≠ 0) && lost q)) := by
  have hfold (ps : List Position) (m : Listeners) :
      hasListener (ps.foldl (fun m p => if lost p then withoutListener m p else m) m) q
        = (hasListener m q && !(decide (q ∈ ps) && lost q)) := by
    induction ps generalizing m with
    | nil => simp
    | cons p ps ih =>
      rw [List.foldl_cons, ih]
      by_cases hq : q = p
      · subst hq
        cases h : lost q <;> simp [hasListener_withoutListener]
      · cases h : lost p <;> simp [hasListener_withoutListener, hq]
  unfold withoutLost
  simp [hfold, mem_memberPositions]

theorem Entry.takes_clean (lost : Position → Bool) (e : Entry) : e.Takes Course.calm (cleanEntry lost e) := by
  unfold cleanEntry
  split
  · next l hl =>
    split
    · next h =>
      refine .stage hl (.cleaned _ h.1 fun p hp => ?_)
      rw [hasListener_withoutLost, Bool.and_eq_true] at hp
      exact hp.1
    · exact .unchanged e
  · exact .unchanged e

theorem Entry.takes_cleanup (lost : Position → Bool) (e : Entry) : e.Takes Course.calm (cleanupEntry lost e) :=
  .andThen (e.takes_orphan lost) (Entry.takes_clean lost _)

theorem Entry.takes_stop (e : Entry) : e.Takes Course.ordinary (stopEntry e) := by
  unfold stopEntry
  split
  · next l hl =>
    split
    · next h => exact .put hl (.stopped h.2.2)
    · exact ⟨.freed e l hl trivial, by simp, fun _ => rfl⟩
  · exact .unchanged e

end

section
variable {C : Course} {s : State}

theorem State.Follows.onEntry {i : LeaseIndex} {ev : EntryEvent} (h : s.leases[i].Takes C ev) : s.Follows C (s.onEntry i ev) where
  entries j := by
    by_cases hj : j = i
    · subst hj
      rw [State.onEntry_entry_self]
      exact h.entry
    · rw [State.onEntry_entry_of_ne s hj]
      exact .stays _
  items j := by
    by_cases hj : j = i
    · subst hj
      exact ⟨ev.raised, h.raised, h.free, by simp [State.itemAfter]⟩
    · have hv : i.val ≠ j.val := fun e => hj (Fin.ext e.symm)
      exact ⟨[], by simp, fun _ => rfl, by simp [hv, raiseItems]⟩
  members k := ⟨0, by simp⟩
  device := ⟨0, by simp⟩

theorem State.Follows.onEveryEntry {f : LeaseIndex → Entry → EntryEvent} (h : ∀ i : LeaseIndex, s.leases[i].Takes C (f i s.leases[i])) :
    s.Follows C (s.onEveryEntry f) where
  entries j := by rw [State.onEveryEntry_entry]; exact (h j).entry
  items j := ⟨(f j s.leases[j]).raised, (h j).raised, (h j).free, by simp [State.itemAfter]⟩
  members k := ⟨0, by simp⟩
  device := ⟨0, by simp⟩

/-! ## The events of the device -/

theorem State.raiseMember_items (s : State) (p : Position) (r : Reasons) (k : Fin 15) :
    (s.raiseMember p r).attention.members[k]
      = if p ≠ 0 ∧ memberIndex p = k then s.attention.members[k] ||| r else s.attention.members[k] := by
  unfold State.raiseMember
  by_cases hp : p = 0
  · simp [hp]
  · by_cases hk : memberIndex p = k
    · subst hk
      simp [hp]
    · have hv : (memberIndex p).val ≠ k.val := fun h => hk (Fin.ext h)
      simp [hp, hk, hv]

@[simp] theorem State.raiseMember_attention_leases (s : State) (p : Position) (r : Reasons) :
    (s.raiseMember p r).attention.leases = s.attention.leases := by
  unfold State.raiseMember
  split <;> rfl

@[simp] theorem State.raiseMember_attention_device (s : State) (p : Position) (r : Reasons) :
    (s.raiseMember p r).attention.device = s.attention.device := by
  unfold State.raiseMember
  split <;> rfl

theorem State.Follows.raiseMember (s : State) (p : Position) (r : Reasons) : s.Follows C (s.raiseMember p r) where
  entries i := by rw [State.raiseMember_leases]; exact .stays _
  items i := ⟨[], by simp, fun _ => rfl, by rw [State.raiseMember_attention_leases]; rfl⟩
  members k := by
    rw [State.raiseMember_items]
    split
    · exact ⟨r, rfl⟩
    · exact ⟨0, by simp⟩
  device := ⟨0, by simp⟩

theorem State.Follows.raiseDevice (s : State) {r : Reasons} (hr : r &&& ~~~(Reason.setApplied ||| Reason.linkLost) = 0) :
    s.Follows C (s.raiseDevice r) where
  entries i := .stays _
  items i := ⟨[], by simp, fun _ => rfl, rfl⟩
  members k := ⟨0, by simp⟩
  device := ⟨r, rfl, hr⟩

theorem State.Follows.releaseOne (s : State) (p : Position) : s.Follows C (s.releaseOne p) := by
  unfold State.releaseOne
  dsimp only
  split
  · exact .trans (.of_eq (by simp) (by simp)) (.raiseMember _ p _)
  · exact .refl s

theorem State.Follows.releaseLost (s : State) : s.Follows C s.releaseLost :=
  State.releaseLost_keeps (P := fun t => s.Follows C t) (fun t p h => h.trans (.releaseOne t p)) (.refl s)

theorem State.applySet_follows (s : State) (set : ChangeSet) : s.Follows Course.ordinary (s.applySet set) := by
  have h : s.Follows Course.ordinary (s.onEveryEntry (applyEntry set)) := .onEveryEntry fun i => Entry.takes_apply set i _
  unfold State.applySet
  generalize s.onEveryEntry (applyEntry set) = t at h ⊢
  have hu : t.Follows Course.ordinary
      { t with publisher := { t.publisher with epoch := t.publisher.epoch + 1, stage := t.nextStage } } := .of_eq rfl rfl
  exact ((h.trans hu).trans (.releaseLost _)).trans (.raiseDevice _ (by decide))

theorem State.sealStaged_follows (s : State) : s.Follows Course.ordinary s.sealStaged :=
  have h : s.Follows Course.ordinary (s.onEveryEntry fun _ e => sealEntry e) := .onEveryEntry fun _ => Entry.takes_seal _
  h.trans (.of_eq rfl rfl)

theorem State.endWindow_follows (s : State) : s.Follows Course.ordinary s.endWindow := by
  unfold State.endWindow
  split
  · exact s.sealStaged_follows
  · exact .of_eq rfl rfl

theorem State.Chooses.attention {s t : State} (h : s.Chooses t) : t.leases = s.leases ∧ t.attention = s.attention := by
  cases h with
  | delivery d rest => cases d <;> simp [State.sendDelivery]
  | notice => simp [State.sendNotice]
  | _ => simp

theorem State.cascade_attention (s : State) (k : Position) : (s.cascade k).attention = { s.attention with
    device := if k = 1 then s.attention.device ||| Reason.linkLost else s.attention.device
    members := s.sweptItems k } := by
  simp [State.cascade]

theorem State.Follows.cascade (s : State) (k : Position) : s.Follows C (s.cascade k) where
  entries i := by rw [State.cascade_leases]; exact .stays _
  items i := ⟨[], by simp, fun _ => rfl, by rw [State.cascade_attention]; rfl⟩
  members j := by
    rw [State.cascade_attention]
    unfold State.sweptItems
    by_cases h : s.swept k (positionAt j) = true
    · exact ⟨s.members.records[j].sweepReason, by simp [h]⟩
    · exact ⟨0, by simp [h]⟩
  device := by
    rw [State.cascade_attention]
    by_cases h : k = 1
    · exact ⟨Reason.linkLost, by simp [h], by decide⟩
    · exact ⟨0, by simp [h], by decide⟩

theorem State.loseMember_follows (s : State) (k : Position) : s.Follows Course.calm (s.loseMember k) :=
  .trans (.cascade s k) (.trans (.onEveryEntry fun _ => Entry.takes_cleanup _ _) (.releaseLost _))

theorem State.countMiss_follows (s : State) (p : Position) : s.Follows Course.calm (s.countMiss p) := by
  rcases s.countMiss_cases p with ⟨h, -⟩ | ⟨h, -⟩ | ⟨h, -⟩ <;> rw [h]
  · exact .of_eq (by simp) (by simp)
  · exact .trans (.of_eq (by simp) (by simp)) (State.loseMember_follows _ p)
  · exact .trans (.of_eq (by simp) (by simp)) (.raiseMember _ p _)

theorem State.intake_leases (s : State) (p : Position) (x : BitVec 40) :
    (s.intake p x).leases = s.leases ∧ (s.intake p x).attention = s.attention := by
  unfold State.intake
  repeat' split
  all_goals simp

theorem State.responseOutcome_follows (s : State) (k : Addressed) (p : Position) (valid ack : Bool) :
    s.Follows Course.calm (s.responseOutcome k p valid ack) := by
  unfold State.responseOutcome
  have hclear : s.Follows Course.calm (s.clearMisses p) := .of_eq (by simp) (by simp)
  have hjoin : s.Follows Course.calm (s.joinMember p) := .trans (.of_eq (by simp) (by simp)) (.raiseMember _ p _)
  have hmiss := s.countMiss_follows p
  cases k with
  | poll | answer => dsimp only; split <;> assumption
  | notice d =>
    dsimp only
    split
    · exact hclear.trans (.of_eq (by simp) (by simp))
    · exact hmiss
  | assign => dsimp only; split <;> assumption

theorem State.takeJoin_follows (s : State) (p : Position) (d : Identity) : s.Follows Course.calm (s.takeJoin p d) := by
  unfold State.takeJoin
  dsimp only
  split
  · exact .of_eq (by simp) (by simp)
  · exact .trans (.of_eq (by simp) (by simp)) (.raiseMember _ p _)

theorem State.takeWord_follows (s : State) (w : ChainWord) : s.Follows Course.calm (s.takeWord w) := by
  have hframe : s.Follows Course.calm (s.setFrame { s.chain.frame with responded := true }) := .of_eq rfl rfl
  unfold State.takeWord
  generalize s.setFrame { s.chain.frame with responded := true } = t at hframe
  dsimp only
  split
  · split
    · exact hframe.trans (State.takeJoin_follows _ _ _)
    · exact hframe
  · refine .trans ?_ (State.responseOutcome_follows _ _ _ _ _)
    split
    · exact hframe.trans (.of_eq (State.intake_leases _ _ _).1 (State.intake_leases _ _ _).2)
    · exact hframe
  · exact .refl s

theorem State.takeMiss_follows (s : State) (p : Position) : s.Follows Course.calm (s.takeMiss p) := by
  have hframe : s.Follows Course.calm (s.setFrame { s.chain.frame with responded := true }) := .of_eq rfl rfl
  exact hframe.trans (State.countMiss_follows _ p)

/-- What the reading of a slot leaves of the table: its lease may change twice, by a renewal and by HEARD (R106, R150). -/
theorem Entry.takes_slot {e : Entry} {l : Lease} (hl : e.lease = some l) (n : FrameNumber) (bits : BitVec 34) :
    e.Takes Course.calm (slotEvent e l n bits) := by
  unfold slotEvent
  split
  · split
    · cases hr : l.renewed n l.term with
      | none => exact .put hl (.flagged _ _ true _)
      | some m =>
        refine ⟨.trans (.change e l m hl (Lease.renewed_tends hr fun h => .inr h)) ?_, by simp [Entry.put], fun _ => rfl⟩
        exact .change _ m _ rfl (.flagged _ _ true _)
    · exact .put hl (.flagged _ _ _ _)
  · exact .unchanged e

theorem State.gatherSlot_leases (s : State) (l : Lease) (k : Nat) (bits : BitVec 34) :
    (s.gatherSlot l k bits).leases = s.leases ∧ (s.gatherSlot l k bits).attention = s.attention := by
  unfold State.gatherSlot
  split <;> exact ⟨rfl, rfl⟩

theorem State.takeSlot_follows {i : LeaseIndex} {l : Lease} (hl : s.lease? i = some l) (k : Fin 8) (bits : BitVec 34) :
    s.Follows Course.calm (s.takeSlot i l k bits) := by
  unfold State.takeSlot
  obtain ⟨h₁, h₂⟩ := State.gatherSlot_leases (s.setFrame { s.chain.frame with slotsRead := (i, k) :: s.chain.frame.slotsRead })
    l k.val bits
  refine .trans (.of_eq h₁ h₂) (.onEntry ?_)
  rw [h₁]
  exact Entry.takes_slot hl _ _

theorem State.stopChain_follows (s : State) : s.Follows Course.ordinary s.stopChain :=
  .trans (.onEveryEntry fun _ => Entry.takes_stop _) (.of_eq rfl rfl)

/-- A SHAPE or a new listener builds a configuration from the latest one, and has it placed (R36, R55, R56). -/
inductive State.Builds (s : State) (i : LeaseIndex) (l : Lease) : Configuration → Configuration → Prop
  | shape (w : Width) (n : Nat) (c : Configuration) (live : l.mark = none) (count : 1 ≤ n ∧ n ≤ 8)
      (channels : s.shapeChannels i l (l.reshaped w n) = .ok ())
      (placed : s.placeFor i l.direction l.source (l.reshaped w n) l.latest.placement = some c) :
      s.Builds i l (l.reshaped w n) c
  | listen (p : Position) (c : Configuration) (live : l.mark = none) (usable : s.usable p = true)
      (side : onSide l.direction l.source p = true) (new : hasListener l.latest.listeners p = false)
      (within : l.listensAt p = false → s.overListen p = false)
      (placed : s.placeFor i l.direction l.source (l.extended p) l.latest.placement = some c) :
      s.Builds i l (l.extended p) c

/-- A granted request changes the lease, binds it, or builds a configuration for it. -/
theorem State.Grants.takes {i : LeaseIndex} {l : Lease} {ev : EntryEvent} (hl : s.lease? i = some l) (h : s.Grants i l ev) :
    s.leases[i].Takes Course.calm ev ∨ (∃ base, ev = s.leases[i].put { l with base } ∧ l.mark = none
        ∧ ∀ b, base = some b → s.channelCheck (fun j => j == i) b.val l.largestCount = .ok ())
      ∨ ∃ c₀ c, ev = adoptEvent s.leases[i] l c ∧ s.Builds i l c₀ c := by
  cases h with
  | shape w n c hm hn hch hp => exact .inr (.inr ⟨_, c, rfl, .shape w n c hm hn hch hp⟩)
  | listen p c hm hu hs hnew hlim hp => exact .inr (.inr ⟨_, c, rfl, .listen p c hm hu hs hnew hlim hp⟩)
  | drop p hm =>
    have hc : l.Tends (l.adopt (l.reduced p)) := .reduced _ hm fun q hq => by
      rw [hasListener_withoutListener, Bool.and_eq_true] at hq
      exact hq.1
    refine .inl ?_
    unfold adoptEvent
    split
    · exact .put hl hc
    · exact .stage hl hc
  | retire who hm => exact .inl (.retireLive hl hm _)
  | requested who hm => exact .inl (.put hl (.marked _ (.inr hm)))
  | renew t l' ht hr => exact .inl (.put hl (Lease.renewed_tends hr ht))
  | rights a b => exact .inl (.put hl (.flagged a b _ _))
  | bind base hm hch => exact .inr (.inl ⟨base, rfl, hm, hch⟩)
  | query => exact .inl (.put hl (.flagged _ _ _ _))
  | nothing => exact .inl (.unchanged _)

theorem Entry.Takes.mono {D : Course} (hle : C.Le D) {e : Entry} {ev : EntryEvent}
    (h : e.Takes C ev) : e.Takes D ev := ⟨h.entry.mono hle, h.raised, h.free⟩

theorem State.Grants.takes_moves {i : LeaseIndex} {l : Lease} {ev : EntryEvent} (hl : s.lease? i = some l)
    (h : s.Grants i l ev) : s.leases[i].Takes Course.whole ev := by
  rcases h.takes hl with h | ⟨base, rfl, -⟩ | ⟨-, c, rfl, -⟩
  · exact h.mono Course.calm_le_whole
  · exact .put hl (.binds base)
  · unfold adoptEvent
    split
    · exact .put hl (.adopts c)
    · exact .stage hl (.adopts c)

theorem State.pend_leases (s : State) (e : QueueEntry) (st : Status) (h : Handle) (r : BitVec 22) :
    (s.pend e st h r).leases = s.leases ∧ (s.pend e st h r).attention = s.attention := by simp [State.pend]

end

theorem State.sealRepack_follows {s : State} {plan : List (PlanItem × Nat)} (hb : s.repackBlocked = false)
    (hp : s.repackPlan = some plan) : s.Follows Course.ordinary (s.sealRepack plan) := by
  have h : s.Follows Course.ordinary (s.onEveryEntry (repackEntry plan)) := .onEveryEntry fun i => by
    unfold repackEntry
    split
    · next l o hl ho =>
      obtain ⟨l', hl', hpl, hin⟩ := State.movedTo_lease hp ho
      cases hl.symm.trans hl'
      obtain ⟨hst, hm⟩ := State.repackBlocked_eq_false_iff.1 hb i l hl
      exact .put hl (.moved o hm hst hpl hin)
    · exact .unchanged _
  exact h.trans (.of_eq rfl rfl)

/-! ## Every command -/

/-- Every command goes on from the state in which it is taken, but for a CREATE, which fills a FREE entry, a fetch, which
takes an item, and the device reset. -/
theorem kept_follows {c : Instr} (hreset : c ≠ .deviceReset) (hcreate : c ≠ .create) (hmember : c ≠ .memberCreate)
    (hfetch : c ≠ .fetchAttention) (s₀ : State) : Kept c fun t => s₀.Follows Course.whole t where
  port _ s t _ ht h := h.trans (.of_eq (by rw [ht]; rfl) (by rw [ht]; rfl))
  deviceReset hc := absurd hc hreset
  resetEnd _ h := h.trans (.of_eq rfl rfl)
  answer _ _ _ _ _ _ h := h.trans (.of_eq rfl rfl)
  grant _ _ _ _ hl hg h := h.trans (.onEntry (hg.takes_moves hl))
  create hc := absurd hc hcreate
  repack s plan _ _ hb hp _ h := h.trans ((State.sealRepack_follows hb hp).mono Course.ordinary_le)
  publish s _ _ _ h := h.trans (s.sealStaged_follows.mono Course.ordinary_le)
  setPublishing s m w h := h.trans (.of_eq (by rw [State.setPublishing_eq]) (by rw [State.setPublishing_eq]))
  setExpected _ _ _ h := h.trans (.of_eq (by simp) (by simp))
  setAdmission _ _ h := h.trans (.of_eq rfl rfl)
  chainStart _ _ _ _ _ _ h := h.trans (.of_eq rfl rfl)
  chainStop _ s _ h := h.trans (s.stopChain_follows.mono Course.ordinary_le)
  fetch hc := absurd hc hfetch
  memberAnswer _ s e rest st hd r _ h := h.trans (.of_eq (State.pend_leases _ e st hd r).1 (State.pend_leases _ e st hd r).2)
  memberGrant _ s e rest i l ev st hd r _ hl hg h := by
    have hd' : s.Follows Course.whole (s.dequeued rest) := .of_eq rfl rfl
    have ht := (hg.takes_moves (s := s.dequeued rest) hl).raising (l := l) hl (r := Reason.memberAction) (by decide)
    exact ((h.trans hd').trans (.onEntry ht)).trans (.of_eq (State.pend_leases _ e st hd r).1 (State.pend_leases _ e st hd r).2)
  memberCreate hc := absurd hc hmember
  application s set _ h := h.trans ((s.applySet_follows set).mono Course.ordinary_le)
  expiry s i _ h := h.trans (.onEntry ((Entry.takes_expire _ _).mono Course.calm_le_whole))
  expiries s _ h := h.trans (.onEveryEntry fun _ => (Entry.takes_expire _ _).mono Course.calm_le_whole)
  windowEnd s _ _ h := h.trans (s.endWindow_follows.mono Course.ordinary_le)
  choice s _ _ h := h.trans (.of_eq s.chooseMessage_chooses.attention.1 s.chooseMessage_chooses.attention.2)
  drive _ _ _ h := h.trans (.of_eq rfl rfl)
  word s w _ h := h.trans ((s.takeWord_follows w).mono Course.calm_le_whole)
  frameStart _ _ h := h.trans (.of_eq rfl rfl)
  slot s i l k bits hl _ h := h.trans ((State.takeSlot_follows hl k bits).mono Course.calm_le_whole)
  miss s p _ h := h.trans ((s.takeMiss_follows p).mono Course.calm_le_whole)
  period _ _ _ h := h.trans (.of_eq rfl rfl)

end Sys2Proof.Machine
end

section
/-! PROOFS. Handles and attention (R2, R3, R163 to R170): what a command leaves of every entry's generation and of every
item, from the course of the entries. -/

namespace Sys2Proof.Machine

/-! ## The commands that the course of the entries leaves out -/

theorem exec_create (s : State) : exec .create s = .next (s.takeHost (· == 1) hostCreate) := rfl
theorem exec_memberCreate (s : State) : exec .memberCreate s = .next (s.takeMember 1 noHandle memberCreate) := rfl
theorem exec_fetchAttention (s : State) : exec .fetchAttention s = .next (s.takeHost (· == 19) hostFetchAttention) := rfl

/-- A lease has come into a FREE entry, and reasons were raised with the handle it has. -/
structure State.Fills (s : State) (i : LeaseIndex) (l : Lease) (rs : List Reasons) (t : State) : Prop where
  free      : s.lease? i = none
  raised    : ∀ r ∈ rs, r ≠ 0
  leases    : t.leases = s.leases.set i ⟨s.leases[i].generation, some l⟩
  attention : t.attention = { s.attention with
    leases := s.attention.leases.set i (raiseItems s.attention.leases[i] s.leases[i].generation rs) }

theorem State.Creates.entry {s : State} {owner : Position} {f : CreateFields} {i : LeaseIndex} {ev : EntryEvent}
    (h : s.Creates owner f i ev) :
    s.lease? i = none ∧ ev.raised = [] ∧ ∃ l, ev.entry = ⟨s.leases[i].generation, some l⟩ := by
  cases h with
  | bare hfree => exact ⟨hfree.1, rfl, _, rfl⟩
  | listened hfree => exact ⟨hfree.1, rfl, _, rfl⟩

/-- A CREATE leaves table and attention set as they are, or fills a FREE entry. -/
theorem exec_creates {c : Instr} (hc : c = .create ∨ c = .memberCreate) {s t : State} (h : exec c s = .next t) :
    (t.leases = s.leases ∧ t.attention = s.attention) ∨ ∃ i l rs, s.Fills i l rs t := by
  rcases hc with rfl | rfl
  · obtain rfl := Host.Outcome.next.inj ((exec_create s).symm.trans h)
    rcases s.takeHost_cases (· == 1) hostCreate with hn | ⟨r, st, hr⟩ | ⟨r, a, ha, ht⟩
    · rw [hn]; exact .inl ⟨rfl, rfl⟩
    · rw [hr]; exact .inl ⟨rfl, rfl⟩
    · rw [ht]
      unfold hostCreate at ha
      split at ha
      · cases ha
      · next f hf =>
        unfold State.hostLeaseAct at ha
        split at ha <;> cases ha
        next x hx =>
        obtain ⟨owner, f', hcr⟩ := State.createLease_created (readCreate_formed hf) hx
        obtain ⟨hfree, hraised, l, hl⟩ := hcr.entry
        refine .inr ⟨x.index, l, [], hfree, by simp, ?_, ?_⟩
        · rw [State.answerHost_leases, State.onEntry_leases, hl]
        · simp [State.itemAfter, hraised]
  · obtain rfl := Host.Outcome.next.inj ((exec_memberCreate s).symm.trans h)
    unfold State.takeMember
    split
    · exact .inl ⟨rfl, rfl⟩
    · next e rest _ =>
      split
      · dsimp only
        split
        · next a ha =>
          unfold memberCreate at ha
          split at ha
          · cases ha
          · next f hf =>
            unfold State.memberLeaseAct at ha
            split at ha <;> cases ha
            next x hx =>
            obtain ⟨owner, f', hcr⟩ := State.createLease_created (QueueEntry.create_formed hf) hx
            obtain ⟨hfree, hraised, l, hl⟩ := hcr.entry
            refine .inr ⟨x.index, l, [Reason.memberAction], hfree, by simp [Reason.memberAction], ?_, ?_⟩
            · rw [(State.pend_leases _ _ _ _ _).1, State.onEntry_leases]
              change s.leases.set x.index x.event.entry = _
              rw [hl]
            · rw [(State.pend_leases _ _ _ _ _).2, State.onEntry_attention]
              simp [State.itemAfter, EntryEvent.raising, hraised]
        · exact .inl (State.pend_leases _ _ _ _ _)
      · exact .inl ⟨rfl, rfl⟩

/-- A fetch leaves the table as it is, and of the attention set what `AttentionSet.fetch` leaves, or all of it. -/
theorem exec_fetches {s t : State} (h : exec .fetchAttention s = .next t) :
    t.leases = s.leases ∧ (t.attention = s.attention ∨ t.attention = s.attention.fetch.1) := by
  obtain rfl := Host.Outcome.next.inj ((exec_fetchAttention s).symm.trans h)
  rcases s.takeHost_cases (· == 19) hostFetchAttention with hn | ⟨r, st, hr⟩ | ⟨r, a, ha, ht⟩
  · rw [hn]; exact ⟨rfl, .inl rfl⟩
  · rw [hr]; exact ⟨rfl, .inl rfl⟩
  · rw [ht]
    unfold hostFetchAttention at ha
    split at ha <;> cases ha
    exact ⟨rfl, .inr rfl⟩

theorem exec_follows {c : Instr} (hreset : c ≠ .deviceReset) (hcreate : ¬(c = .create ∨ c = .memberCreate))
    (hfetch : c ≠ .fetchAttention) {s t : State} (h : exec c s = .next t) : s.Follows Course.whole t :=
  (kept_follows hreset (fun hc => hcreate (.inl hc)) (fun hc => hcreate (.inr hc)) hfetch s).exec h (.refl s)

/-! ## Handles (R2, R3) -/

/-- The lease is the same one: its stream, owner, source and direction are (R4). -/
def Lease.SameAs (l l' : Lease) : Prop :=
  l'.stream = l.stream ∧ l'.owner = l.owner ∧ l'.source = l.source ∧ l'.direction = l.direction

theorem Lease.sameAs_of_course {l l' : Lease} (h : Relation.ReflTransGen Course.whole.change l l') : l.SameAs l' := by
  induction h with
  | refl => exact ⟨rfl, rfl, rfl, rfl⟩
  | tail _ hm ih =>
    obtain ⟨h1, h2, h3, h4⟩ := ih
    obtain ⟨h1', h2', h3', h4'⟩ := hm.identity
    exact ⟨h1'.trans h1, h2'.trans h2, h3'.trans h3, h4'.trans h4⟩

/-- What becomes of an entry in a command that makes no lease: its lease stays, under its handle, or goes FREE. -/
theorem Entry.Evolves.handle {e e' : Entry} (h : e.Evolves Course.whole e') {l : Lease} (hl : e.lease = some l) :
    (∃ l', e' = ⟨e.generation, some l'⟩ ∧ l.SameAs l') ∨ e' = ⟨e.generation + 1, none⟩ := by
  cases hn : e'.lease with
  | none => exact .inr (h.lost hl hn)
  | some l' =>
    obtain ⟨hg, m, hm, hr⟩ := h.held hn
    cases hl.symm.trans hm
    exact .inl ⟨l', by cases e'; cases hg; cases hn; rfl, Lease.sameAs_of_course hr⟩

/-- Settles O59: a lease's course in its entry keeps the handle until it goes FREE, and only a CREATE fills an entry. -/
theorem handlesNameOneLease : Obligations.HandlesNameOneLease := by
  unfold Obligations.HandlesNameOneLease
  intro c s t hreset h i
  have stays (he : s.leases[i].Evolves Course.whole t.leases[i]) (hnone : s.lease? i = none → t.lease? i = none) :
      (∀ l, s.lease? i = some l → (∃ l', t.leases[i] = ⟨s.leases[i].generation, some l'⟩ ∧ l.SameAs l')
        ∨ t.leases[i] = ⟨s.leases[i].generation + 1, none⟩)
      ∧ (s.lease? i = none → t.leases[i].generation = s.leases[i].generation
        ∧ (t.lease? i ≠ none → c = .create ∨ c = .memberCreate)) :=
    ⟨fun l hl => he.handle hl, fun hn => ⟨congrArg Entry.generation (he.of_free hn), fun ht => absurd (hnone hn) ht⟩⟩
  have same (hl : t.leases = s.leases) := stays (by rw [hl]; exact .stays _) (by simp only [State.lease?, hl]; exact id)
  by_cases hcreate : c = .create ∨ c = .memberCreate
  · rcases exec_creates hcreate h with ⟨hl, -⟩ | ⟨j, m, rs, hfree, -, hl, -⟩
    · exact same hl
    · by_cases hij : i = j
      · subst hij
        refine ⟨fun l hl => absurd (hl.symm.trans hfree) (by simp), fun _ => ⟨?_, fun _ => hcreate⟩⟩
        rw [hl]
        simp
      · have hi : t.leases[i] = s.leases[i] := by
          have hv : j.val ≠ i.val := fun hv => hij (Fin.ext hv.symm)
          rw [hl]
          simp [hv]
        exact stays (by rw [hi]; exact .stays _) (by simp only [State.lease?, hi]; exact id)
  · by_cases hfetch : c = .fetchAttention
    · subst hfetch
      exact same (exec_fetches h).1
    · have he := (exec_follows hreset hcreate hfetch h).entries i
      exact stays he fun hn => (congrArg Entry.lease (he.of_free hn)).trans hn

/-! ## Attention (R163 to R170) -/

theorem raiseItem_some (item : Option LeaseItem) (g : Generation) (r : Reasons) :
    ∃ it, raiseItem item g r = some it ∧ it.generation = g ∧ r &&& ~~~it.reasons = 0 := by
  have sub_self : ∀ x : Reasons, x &&& ~~~x = 0 := by decide
  have sub_left : ∀ x y : Reasons, x &&& ~~~(x ||| y) = 0 := by decide
  have sub_right : ∀ x y : Reasons, x &&& ~~~(y ||| x) = 0 := by decide
  unfold raiseItem
  cases item with
  | none => exact ⟨_, rfl, rfl, sub_self r⟩
  | some old =>
    dsimp only
    split
    · exact ⟨_, rfl, rfl, sub_right r _⟩
    · exact ⟨_, rfl, rfl, sub_left r _⟩

/-- An item that is there holds a reason, after raises too. -/
theorem raiseItems_reasons {item : Option LeaseItem} (h : ∀ it, item = some it → it.reasons ≠ 0) {g : Generation}
    {rs : List Reasons} (hrs : ∀ r ∈ rs, r ≠ 0) : ∀ it, raiseItems item g rs = some it → it.reasons ≠ 0 := by
  induction rs generalizing item with
  | nil => exact h
  | cons r rs ih =>
    refine ih (fun it hit => ?_) fun x hx => hrs x (List.mem_cons_of_mem r hx)
    obtain ⟨it', hit', -, hr⟩ := raiseItem_some item g r
    cases hit.symm.trans hit'
    have hr0 := hrs r List.mem_cons_self
    intro h0
    have only_zero : ∀ x : Reasons, x &&& ~~~0 = 0 → x = 0 := by decide
    rw [h0] at hr
    exact hr0 (only_zero r hr)

/-- What raises with one handle leave of an item: its reasons, under its own handle, or SUPERSEDED under theirs (R167, R168). -/
theorem raiseItems_keeps (old : LeaseItem) (g : Generation) (rs : List Reasons) :
    ∃ new, raiseItems (some old) g rs = some new
      ∧ ((new.generation = old.generation ∧ old.reasons &&& ~~~new.reasons = 0)
        ∨ (new.generation ≠ old.generation ∧ new.generation = g ∧ new.reasons &&& Reason.superseded ≠ 0)) := by
  suffices hgen : ∀ cur : LeaseItem, ((cur.generation = old.generation ∧ old.reasons &&& ~~~cur.reasons = 0)
        ∨ (cur.generation ≠ old.generation ∧ cur.generation = g ∧ cur.reasons &&& Reason.superseded ≠ 0)) →
      ∃ new, raiseItems (some cur) g rs = some new
        ∧ ((new.generation = old.generation ∧ old.reasons &&& ~~~new.reasons = 0)
          ∨ (new.generation ≠ old.generation ∧ new.generation = g ∧ new.reasons &&& Reason.superseded ≠ 0)) from
    hgen old (.inl ⟨rfl, by simp⟩)
  induction rs with
  | nil => exact fun cur h => ⟨cur, rfl, h⟩
  | cons r rs ih =>
    intro cur h
    have supersedes_kept (x y : Reasons) (hx : x &&& Reason.superseded ≠ 0) : (x ||| y) &&& Reason.superseded ≠ 0 := by
      revert x y; decide
    have reasons_kept (x y z : Reasons) (hx : x &&& ~~~y = 0) : x &&& ~~~(y ||| z) = 0 := by
      revert x y z; decide
    by_cases hg : cur.generation = g
    · have hr : raiseItem (some cur) g r = some ⟨g, cur.reasons ||| r⟩ := by simp [raiseItem, hg]
      rw [raiseItems, List.foldl_cons, hr]
      refine ih _ ?_
      rcases h with ⟨hgen, hx⟩ | ⟨hgen, -, hx⟩
      · exact .inl ⟨hg.symm.trans hgen, reasons_kept _ _ _ hx⟩
      · exact .inr ⟨hg ▸ hgen, rfl, supersedes_kept _ _ hx⟩
    · have hr : raiseItem (some cur) g r = some ⟨g, r ||| Reason.superseded⟩ := by simp [raiseItem, hg]
      rw [raiseItems, List.foldl_cons, hr]
      refine ih _ (.inr ⟨?_, rfl, ?_⟩)
      · rcases h with ⟨hgen, -⟩ | ⟨-, hgen, -⟩
        · exact fun hgo => hg (hgen.trans hgo.symm)
        · exact absurd hgen hg
      · have superseded_set (x : Reasons) : (x ||| Reason.superseded) &&& Reason.superseded ≠ 0 := by revert x; decide
        exact superseded_set r

/-- A reason stays: what the attention set held it holds, or has superseded (R168, R170). -/
def State.KeepsReasons (s t : State) : Prop :=
  s.attention.device &&& ~~~t.attention.device = 0
  ∧ (∀ k : Fin 15, s.attention.members[k] &&& ~~~t.attention.members[k] = 0)
  ∧ ∀ (i : LeaseIndex) old, s.attention.leases[i] = some old → ∃ new, t.attention.leases[i] = some new
    ∧ ((new.generation = old.generation ∧ old.reasons &&& ~~~new.reasons = 0)
      ∨ (new.generation ≠ old.generation ∧ new.reasons &&& Reason.superseded ≠ 0))

theorem reasons_sub_or (x y : Reasons) : x &&& ~~~(x ||| y) = 0 := by revert x y; decide

/-- Raises alone keep every reason and the law of the attention set. -/
theorem State.keepsReasons_of_raises {s t : State}
    (hitems : ∀ i : LeaseIndex, ∃ (g : Generation) (rs : List Reasons), (∀ r ∈ rs, r ≠ 0)
      ∧ t.attention.leases[i] = raiseItems s.attention.leases[i] g rs)
    (hmembers : ∀ k : Fin 15, ∃ r, t.attention.members[k] = s.attention.members[k] ||| r)
    (hdevice : ∃ r, t.attention.device = s.attention.device ||| r ∧ r &&& ~~~(Reason.setApplied ||| Reason.linkLost) = 0)
    (hs : s.AttentionLawful) : t.AttentionLawful ∧ s.KeepsReasons t := by
  obtain ⟨r, hr, hr0⟩ := hdevice
  refine ⟨⟨fun i => ?_, ?_⟩, ?_, fun k => ?_, fun i old hold => ?_⟩
  · obtain ⟨g, rs, hrs, hi⟩ := hitems i
    rw [hi]
    exact raiseItems_reasons (fun it => hs.lease i it) hrs
  · rw [hr]
    have hd := hs.device
    clear hr
    revert hd hr0
    generalize s.attention.device = x
    revert x r
    decide
  · rw [hr]
    exact reasons_sub_or _ r
  · obtain ⟨x, hx⟩ := hmembers k
    rw [hx]
    exact reasons_sub_or _ x
  · obtain ⟨g, rs, -, hi⟩ := hitems i
    obtain ⟨new, hnew, hkeep⟩ := raiseItems_keeps old g rs
    rw [hold] at hi
    exact ⟨new, hi.trans hnew, hkeep.imp_right fun h => ⟨h.1, h.2.2⟩⟩

theorem State.keepsReasons_of_eq {s t : State} (h : t.attention = s.attention) (hs : s.AttentionLawful) :
    t.AttentionLawful ∧ s.KeepsReasons t :=
  State.keepsReasons_of_raises (fun _ => ⟨0, [], by simp, by rw [h]; rfl⟩) (fun _ => ⟨0, by simp [h]⟩) ⟨0, by simp [h]⟩ hs

theorem AttentionSet.fetch_lawful {s t : State} (h : t.attention = s.attention.fetch.1) (hs : s.AttentionLawful) :
    t.AttentionLawful := by
  have of_parts (hl : ∀ i : LeaseIndex, t.attention.leases[i] = s.attention.leases[i] ∨ t.attention.leases[i] = none)
      (hd : t.attention.device = s.attention.device ∨ t.attention.device = 0) : t.AttentionLawful := by
    refine ⟨fun i it hit => ?_, ?_⟩
    · rcases hl i with hi | hi
      · exact hs.lease i it (hi.symm.trans hit)
      · exact absurd (hi.symm.trans hit) (by simp)
    · rcases hd with hd | hd <;> rw [hd]
      · exact hs.device
      · decide
  unfold AttentionSet.fetch at h
  split at h
  · exact of_parts (fun i => .inl (by rw [h])) (.inr (by rw [h]))
  · split at h
    · exact of_parts (fun i => .inl (by rw [h])) (.inl (by rw [h]))
    · split at h
      · next j _ =>
        refine of_parts (fun i => ?_) (.inl (by rw [h]))
        rw [h]
        by_cases hj : j.val = i.val
        · exact .inr (by simp [hj])
        · exact .inl (by simp [hj])
      · exact of_parts (fun i => .inl (by rw [h])) (.inl (by rw [h]))

theorem State.reset_attentionLawful : State.reset.AttentionLawful :=
  ⟨by simp [State.reset, AttentionSet.empty], by decide⟩

/-- Settles O60: but for a fetch and the reset, a command does no more to the attention set than raise reasons. -/
theorem attentionIsKept : Obligations.AttentionIsKept := by
  unfold Obligations.AttentionIsKept
  intro c s t hs h
  by_cases hreset : c = .deviceReset
  · subst hreset
    obtain rfl := Host.Outcome.next.inj ((exec_deviceReset s).symm.trans h)
    exact ⟨⟨State.reset_attentionLawful.lease, State.reset_attentionLawful.device⟩, fun hc => absurd rfl hc⟩
  · by_cases hcreate : c = .create ∨ c = .memberCreate
    · suffices hk : t.AttentionLawful ∧ s.KeepsReasons t from ⟨hk.1, fun _ _ => hk.2⟩
      rcases exec_creates hcreate h with ⟨-, ha⟩ | ⟨j, m, rs, -, hrs, -, ha⟩
      · exact State.keepsReasons_of_eq ha hs
      · refine State.keepsReasons_of_raises (fun i => ?_) (fun _ => ⟨0, by simp [ha]⟩) ⟨0, by simp [ha]⟩ hs
        by_cases hij : j.val = i.val
        · obtain rfl : j = i := Fin.ext hij
          exact ⟨s.leases[j].generation, rs, hrs, by simp [ha]⟩
        · exact ⟨0, [], by simp, by simp [ha, hij, raiseItems]⟩
    · by_cases hfetch : c = .fetchAttention
      · subst hfetch
        refine ⟨?_, fun _ hc => absurd rfl hc⟩
        rcases (exec_fetches h).2 with ha | ha
        · exact (State.keepsReasons_of_eq ha hs).1
        · exact AttentionSet.fetch_lawful ha hs
      · have hf := exec_follows hreset hcreate hfetch h
        obtain ⟨hlaw, hkeep⟩ := State.keepsReasons_of_raises (fun i => by
          obtain ⟨rs, hrs, -, hi⟩ := hf.items i
          exact ⟨_, rs, hrs, hi⟩) hf.members hf.device hs
        exact ⟨hlaw, fun _ _ => hkeep⟩

/-! ## The queue of commands -/

theorem kept_pending (c : Instr) (q : List Instr) : Kept c fun t => t.pending = q where
  port _ s t _ ht h := by rw [ht]; exact h
  deviceReset hc s t ht h := by
    subst hc
    obtain rfl := Host.Outcome.next.inj ((exec_deviceReset s).symm.trans ht)
    exact h
  resetEnd _ h := h
  answer _ _ _ _ _ _ h := h
  grant _ _ _ _ _ _ h := by simpa using h
  create _ _ _ _ _ _ _ h := by simpa using h
  repack _ _ _ _ _ _ _ h := by simpa [State.sealRepack] using h
  publish _ _ _ _ h := by simpa [State.sealStaged] using h
  setPublishing _ _ _ h := by rw [State.setPublishing_eq]; exact h
  setExpected _ _ _ h := by simpa using h
  setAdmission _ _ h := h
  chainStart _ _ _ _ _ _ h := h
  chainStop _ s _ h := by simpa [State.stopChain] using h
  fetch _ _ h := h
  memberAnswer _ _ _ _ _ _ _ _ h := by simpa [State.pend, State.dequeued] using h
  memberGrant _ _ _ _ _ _ _ _ _ _ _ _ _ h := by simpa [State.pend, State.dequeued] using h
  memberCreate _ _ _ _ _ _ _ _ _ _ _ _ _ h := by simpa [State.pend, State.dequeued] using h
  application _ _ _ h := by simpa [State.applySet] using h
  expiry _ _ _ h := by simpa using h
  expiries _ _ h := by simpa using h
  windowEnd s _ _ h := by
    unfold State.endWindow
    split <;> simpa [State.sealStaged] using h
  choice s _ _ h := s.chooseMessage_chooses.pending.trans h
  drive _ _ _ h := h
  word s w _ h := (s.takeWord_pending w).trans h
  frameStart _ _ h := h
  slot s i l k bits _ _ h := by
    unfold State.takeSlot State.gatherSlot
    dsimp only
    split <;> simpa using h
  miss s p _ h := (State.countMiss_pending _ p).trans h
  period _ _ _ h := h

/-- Settles O2: every arm of `exec` answers a next state, and no event of a command touches the queue. -/
theorem everyCommandCompletes : Obligations.EveryCommandCompletes := by
  unfold Obligations.EveryCommandCompletes
  intro c s
  have hnext : ∃ t, exec c s = .next t := by cases c <;> exact ⟨_, rfl⟩
  obtain ⟨t, ht⟩ := hnext
  exact ⟨t, ht, (kept_pending c s.pending).exec ht rfl⟩

end Sys2Proof.Machine
end

section
/-! PROOFS. The lease records under the events of the device: each configuration stays lawful, and the channels that a
binding reserves stay its own (R7, R8, R10, R11, R13). -/

namespace Sys2Proof.Machine

/-! ## The configurations of a lease -/

theorem Lease.sealedConfig_some {l : Lease} {c : Configuration} : l.sealedConfig = some c ↔ l.sealed = some (.config c) := by
  unfold Lease.sealedConfig
  split <;> simp_all

theorem Lease.mem_configurations {l : Lease} {c : Configuration} :
    c ∈ l.configurations ↔ c = l.active ∨ l.sealed = some (.config c) ∨ l.staged = some c := by
  simp only [Lease.configurations, List.mem_cons, List.mem_append, Option.mem_toList, Lease.sealedConfig_some]

theorem Lease.latest_mem (l : Lease) : l.latest ∈ l.configurations := by
  rw [Lease.mem_configurations]
  unfold Lease.latest
  split
  · next c h => exact .inr (.inr h)
  · split
    · next c h => exact .inr (.inl (Lease.sealedConfig_some.1 h))
    · exact .inl rfl

theorem Lease.mem_adopt {l : Lease} {c d : Configuration} (h : d ∈ (l.adopt c).configurations) :
    d = c ∨ d ∈ l.configurations := by
  rw [Lease.mem_configurations] at h ⊢
  unfold Lease.adopt at h
  split at h
  · rcases h with h | h | h
    · exact .inl h
    · exact .inr (.inr (.inl h))
    · obtain ⟨_, -, rfl⟩ := Option.map_eq_some_iff.1 h
      exact .inl rfl
  · rcases h with h | h | h
    · exact .inr (.inl h)
    · exact .inr (.inr (.inl h))
    · exact .inl (Option.some.inj h).symm

theorem Lease.listensAt_iff {l : Lease} {p : Position} :
    l.listensAt p = true ↔ ∃ c ∈ l.configurations, hasListener c.listeners p = true := by
  simp [Lease.listensAt]

theorem Lease.le_largestCount {l : Lease} {c : Configuration} (h : c ∈ l.configurations) : c.count ≤ l.largestCount := by
  have le_fold (cs : List Configuration) (n : Nat) :
      n ≤ cs.foldl (fun n c => max n c.count) n ∧ ∀ c ∈ cs, c.count ≤ cs.foldl (fun n c => max n c.count) n := by
    induction cs generalizing n with
    | nil => simp
    | cons a cs ih =>
      obtain ⟨h₁, h₂⟩ := ih (max n a.count)
      refine ⟨le_trans (le_max_left _ _) h₁, ?_⟩
      simp only [List.mem_cons, forall_eq_or_imp]
      exact ⟨le_trans (le_max_right _ _) h₁, h₂⟩
  exact (le_fold _ 0).2 c h

theorem Lease.largestCount_le {l : Lease} {n : Nat} (h : ∀ c ∈ l.configurations, c.count ≤ n) : l.largestCount ≤ n := by
  have fold_le (cs : List Configuration) (m : Nat) (hm : m ≤ n) (h : ∀ c ∈ cs, c.count ≤ n) :
      cs.foldl (fun n c => max n c.count) m ≤ n := by
    induction cs generalizing m with
    | nil => exact hm
    | cons a cs ih =>
      rw [List.forall_mem_cons] at h
      exact ih _ (max_le hm h.1) h.2
  exact fold_le _ 0 (Nat.zero_le n) h

/-- No listener set but the empty one is without a position. -/
theorem listeners_ne_zero_iff {l : Listeners} : l ≠ 0 ↔ ∃ p, hasListener l p = true := by
  constructor
  · intro h
    by_contra hn
    refine h (BitVec.eq_of_getLsbD_eq fun k hk => ?_)
    have hb : hasListener l ⟨k, hk⟩ = false := Bool.eq_false_iff.2 fun hb => hn ⟨_, hb⟩
    exact hb.trans (by simp)
  · rintro ⟨p, hp⟩ rfl
    simp [hasListener] at hp

theorem listeners_ne_zero_of_sub {a b : Listeners} (h : ∀ p, hasListener a p = true → hasListener b p = true) (ha : a ≠ 0) :
    b ≠ 0 := by
  obtain ⟨p, hp⟩ := listeners_ne_zero_iff.1 ha
  exact listeners_ne_zero_iff.2 ⟨p, h p hp⟩

/-! ## A change makes no configuration wider -/

/-- Of one width and count with another configuration, and of no listener more. -/
structure Configuration.Within (c d : Configuration) : Prop where
  width : c.width = d.width
  count : c.count = d.count
  sub   : ∀ p, hasListener c.listeners p = true → hasListener d.listeners p = true

theorem Configuration.Within.refl (c : Configuration) : c.Within c := ⟨rfl, rfl, fun _ => id⟩

/-- Every configuration of a changed lease lies within one that the lease had. -/
theorem Lease.Changes.within {l l' : Lease} (h : l.Changes l') :
    ∀ c ∈ l'.configurations, ∃ d ∈ l.configurations, c.Within d := by
  have same {c : Configuration} (hc : c ∈ l.configurations) : ∃ d ∈ l.configurations, c.Within d := ⟨c, hc, .refl c⟩
  have latest {left : Listeners} (sub : ∀ p, hasListener left p = true → hasListener l.latest.listeners p = true) :
      ∃ d ∈ l.configurations, (l.latest.shrunkTo left).Within d := ⟨l.latest, l.latest_mem, rfl, rfl, sub⟩
  intro c hc
  cases h with
  | tends _ h =>
    cases h with
    | marked | renewed | flagged => exact same hc
    | reduced left _ sub =>
      rcases Lease.mem_adopt hc with rfl | hc
      · exact latest sub
      · exact same hc
    | cleaned left _ sub =>
      rcases Lease.mem_configurations.1 hc with h | h | h
      · exact same (Lease.mem_configurations.2 (.inl h))
      · exact same (Lease.mem_configurations.2 (.inr (.inl h)))
      · exact Option.some.inj h ▸ latest sub
  | retireSealed =>
    rcases Lease.mem_configurations.1 hc with h | h | h
    · exact same (Lease.mem_configurations.2 (.inl h))
    · cases h
    · cases h
  | moved o =>
    rcases Lease.mem_configurations.1 hc with h | h | h
    · exact same (Lease.mem_configurations.2 (.inl h))
    · cases h
      exact ⟨l.active, Lease.mem_configurations.2 (.inl rfl), rfl, rfl, fun _ => id⟩
    · exact same (Lease.mem_configurations.2 (.inr (.inr h)))
  | configSealed d _ hd =>
    rcases Lease.mem_configurations.1 hc with h | h | h
    · exact same (Lease.mem_configurations.2 (.inl h))
    · cases h
      exact same (Lease.mem_configurations.2 (.inr (.inr hd)))
    · cases h
  | applied d hd =>
    rcases Lease.mem_configurations.1 hc with h | h | h
    · cases h
      exact same (Lease.mem_configurations.2 (.inr (.inl hd)))
    · cases h
    · exact same (Lease.mem_configurations.2 (.inr (.inr h)))
  | settled d _ hd =>
    rcases Lease.mem_configurations.1 hc with h | h | h
    · cases h
      exact same (Lease.mem_configurations.2 (.inr (.inr hd)))
    · exact same (Lease.mem_configurations.2 (.inr (.inl h)))
    · cases h
  | stopped =>
    rcases Lease.mem_configurations.1 hc with h | h | h
    · cases h
      exact ⟨l.active, Lease.mem_configurations.2 (.inl rfl), rfl, rfl, fun p hp => by simp [Configuration.unplaced, hasListener] at hp⟩
    · cases h
    · cases h

/-! ## A change keeps the record lawful (R7, R8, R13) -/

section
variable {d : Direction} {source : Position} {c : Configuration}

theorem Configuration.Lawful.shrunkTo (h : c.Lawful d source) {left : Listeners}
    (sub : ∀ p, hasListener left p = true → hasListener c.listeners p = true) : (c.shrunkTo left).Lawful d source where
  count := h.count
  placed := by
    unfold Configuration.shrunkTo
    split
    · next h0 => simp [h0]
    · next h0 => exact iff_of_true (h.placed.2 (listeners_ne_zero_of_sub sub h0)) h0
  side p hp := h.side p (sub p hp)
  within o ho := by
    unfold Configuration.shrunkTo at ho
    split at ho
    · cases ho
    · exact h.within o ho

theorem Configuration.Lawful.moveTo (h : c.Lawful d source) {o : Nat} (hp : c.placement ≠ none) (hin : o + c.cost ≤ 440) :
    ({ c with placement := some o } : Configuration).Lawful d source where
  count := h.count
  placed := ⟨fun _ => h.placed.1 (Option.isSome_iff_ne_none.2 hp), fun _ => rfl⟩
  side := h.side
  within _ ho := Option.some.inj ho ▸ hin

theorem Configuration.Lawful.unplaced (h : c.Lawful d source) : c.unplaced.Lawful d source where
  count := h.count
  placed := by simp [Configuration.unplaced]
  side p hp := by simp [Configuration.unplaced, hasListener] at hp
  within o ho := by cases ho

end

section
variable {l l' : Lease} {c : Configuration}

theorem Lease.Lawful.active (h : l.Lawful) : l.active.Lawful l.direction l.source :=
  h.configs _ (Lease.mem_configurations.2 (.inl rfl))

theorem Lease.Lawful.sealed (h : l.Lawful) (hs : l.sealed = some (.config c)) : c.Lawful l.direction l.source :=
  h.configs _ (Lease.mem_configurations.2 (.inr (.inl hs)))

theorem Lease.Lawful.staged (h : l.Lawful) (hs : l.staged = some c) : c.Lawful l.direction l.source :=
  h.configs _ (Lease.mem_configurations.2 (.inr (.inr hs)))

theorem Lease.Lawful.latest (h : l.Lawful) : l.latest.Lawful l.direction l.source := h.configs _ l.latest_mem

/-- A lawful lease without a SEALED mark holds no sealed retirement (R13, R19). -/
theorem Lease.Lawful.sealed_ne (h : l.Lawful) (hs : l.state ≠ .going) : l.sealed ≠ some .retirement :=
  fun hr => hs (h.retiring.1 hr)

/-- The configurations of a lease are lawful when its three places hold lawful ones. -/
theorem Lease.configs_lawful {d : Direction} {source : Position} (ha : l.active.Lawful d source)
    (hs : ∀ c, l.sealed = some (.config c) → c.Lawful d source) (ht : ∀ c, l.staged = some c → c.Lawful d source) :
    ∀ c ∈ l.configurations, c.Lawful d source := by
  intro c hc
  rcases Lease.mem_configurations.1 hc with rfl | hc | hc
  · exact ha
  · exact hs c hc
  · exact ht c hc

/-- A lawful configuration adopted by a lease that is not GOING. -/
theorem Lease.Lawful.adopt (h : l.Lawful) (hg : l.state ≠ .going) (hc : c.Lawful l.direction l.source) :
    (l.adopt c).Lawful := by
  have configs : ∀ d ∈ (l.adopt c).configurations, d.Lawful l.direction l.source := fun d hd =>
    (Lease.mem_adopt hd).elim (fun h => h ▸ hc) (h.configs d)
  unfold Lease.adopt at configs ⊢
  split at configs
  · next ha =>
    rw [if_pos ha]
    exact ⟨h.source, configs, h.retiring, fun hs => absurd hs hg, h.expiry, h.standing, h.stream⟩
  · next ha =>
    rw [if_neg ha]
    exact ⟨h.source, configs, h.retiring, fun hs => absurd hs hg, h.expiry, h.standing, h.stream⟩

theorem expiryFrom_eq_none {n : FrameNumber} {t : Term} : expiryFrom n t = none ↔ t = 0 := by
  unfold expiryFrom
  split <;> simp_all

/-- A lease that an event may mark or renew is not GOING. -/
theorem Lease.not_going (hm : l.mark = none ∨ l.mark = some ⟨.expired, .staged⟩) : l.state ≠ .going := by
  intro hs
  obtain ⟨cause, hc⟩ := Lease.state_going_iff.1 hs
  rcases hm with hm | hm <;> simp [hm] at hc

theorem Lease.Tends.lawful (h : l.Tends l') (hl : l.Lawful) : l'.Lawful := by
  cases h with
  | marked cause hm =>
    refine ⟨hl.source, hl.configs, ?_, fun hs => ?_, hl.expiry, hl.standing, hl.stream⟩
    · exact iff_of_false (hl.sealed_ne (Lease.not_going hm)) (by simp [Lease.state])
    · simp [Lease.state] at hs
  | renewed n t hm hst =>
    refine ⟨hl.source, hl.configs, ?_, fun hs => ?_, expiryFrom_eq_none, fun h0 => ?_, hl.stream⟩
    · exact iff_of_false (hl.sealed_ne (Lease.not_going hm)) (by simp [Lease.state])
    · simp [Lease.state] at hs
    · exact (hst h0).elim id hl.standing
  | flagged => exact ⟨hl.source, hl.configs, hl.retiring, hl.going, hl.expiry, hl.standing, hl.stream⟩
  | reduced left hm sub => exact hl.adopt (Lease.not_going (.inl hm)) (hl.latest.shrunkTo sub)
  | cleaned left hg sub =>
    refine ⟨hl.source, Lease.configs_lawful hl.active (fun _ => hl.sealed) ?_, hl.retiring, fun hs => absurd hs hg, hl.expiry,
      hl.standing, hl.stream⟩
    exact fun c hc => Option.some.inj hc ▸ hl.latest.shrunkTo sub

theorem Lease.Changes.lawful (h : l.Changes l') (hl : l.Lawful) : l'.Lawful := by
  cases h with
  | tends _ h => exact h.lawful hl
  | retireSealed cause hm =>
    exact ⟨hl.source, Lease.configs_lawful hl.active (by simp) (by simp), iff_of_true rfl rfl, fun _ => rfl, hl.expiry, hl.standing,
      hl.stream⟩
  | configSealed c hm hc =>
    have live : l.state ≠ .going := Lease.not_going (.inl hm)
    refine ⟨hl.source, Lease.configs_lawful hl.active ?_ (by simp), iff_of_false (by simp) live, fun _ => rfl, hl.expiry, hl.standing,
      hl.stream⟩
    rintro d ⟨⟩
    exact hl.staged hc
  | moved o hm hst hp hin =>
    have live : l.state ≠ .going := Lease.not_going (.inl hm)
    refine ⟨hl.source, Lease.configs_lawful hl.active ?_ (fun _ => hl.staged), iff_of_false (by simp) live, fun _ => hst, hl.expiry,
      hl.standing, hl.stream⟩
    rintro d ⟨⟩
    exact hl.active.moveTo hp hin
  | applied c hs =>
    have live : l.state ≠ .going := fun hg => by simp [hl.retiring.2 hg] at hs
    exact ⟨hl.source, Lease.configs_lawful (hl.sealed hs) (by simp) (fun _ => hl.staged), iff_of_false (by simp) live,
      fun hg => absurd hg live, hl.expiry, hl.standing, hl.stream⟩
  | settled c hm hc =>
    exact ⟨hl.source, Lease.configs_lawful (hl.staged hc) (fun _ => hl.sealed) (by simp), hl.retiring, fun _ => rfl, hl.expiry,
      hl.standing, hl.stream⟩
  | stopped hm =>
    exact ⟨hl.source, Lease.configs_lawful hl.active.unplaced (by simp) (by simp), iff_of_false (by simp) (Lease.not_going (.inl hm)),
      fun _ => rfl, hl.expiry, hl.standing, hl.stream⟩

end

/-! ## The Lease Table (R7, R8, R10) -/

section
variable {s t : State} {i : LeaseIndex} {ev : EntryEvent}

theorem State.lease?_congr (h : t.leases = s.leases) (j : LeaseIndex) : t.lease? j = s.lease? j := by
  unfold State.lease?
  rw [h]

theorem State.lease?_onEntry (s : State) (i : LeaseIndex) (ev : EntryEvent) (j : LeaseIndex) :
    (s.onEntry i ev).lease? j = if j = i then ev.entry.lease else s.lease? j := by
  unfold State.lease?
  split
  · next h => rw [h, State.onEntry_entry_self]
  · next h => rw [State.onEntry_entry_of_ne s h]

/-- A lease that is there after the device went on was there before, and was changed as the course allows. -/
theorem State.Follows.held {C : Course} (h : s.Follows C t) {j : LeaseIndex} {l' : Lease}
    (hl : t.lease? j = some l') : ∃ l, s.lease? j = some l ∧ Relation.ReflTransGen C.change l l' :=
  ((h.entries j).held hl).2

theorem adoptEvent_entry (e : Entry) (l : Lease) (c : Configuration) : (adoptEvent e l c).entry = ⟨e.generation, some (l.adopt c)⟩ := by
  unfold adoptEvent
  split <;> rfl

/-- A predicate of the Lease Table alone is kept by every command when the course of the entries keeps it, and what a
granted request and a CREATE make of one entry. -/
theorem kept_of_table {P : State → Prop} (c : Instr) (congr : ∀ s t : State, t.leases = s.leases → P s → P t)
    (follows : ∀ s t : State, s.Follows Course.ordinary t → P s → P t)
    (grant : ∀ s i l ev, s.lease? i = some l → s.Grants i l ev → P s → P (s.onEntry i ev))
    (create : ∀ s owner f i ev, s.Creates owner f i ev → P s → P (s.onEntry i ev)) (reset : P State.reset) : Kept c P where
  port _ s t _ ht h := congr s t (by rw [ht]; rfl) h
  deviceReset hc s t h _ := by
    subst hc
    obtain rfl := Host.Outcome.next.inj h
    exact congr State.reset _ rfl reset
  resetEnd s h := congr s _ rfl h
  answer _ s _ _ _ _ h := congr s _ rfl h
  grant := grant
  create _ := create
  repack s plan _ _ hb hp _ h := follows s _ (State.sealRepack_follows hb hp) h
  publish s _ _ _ h := follows s _ s.sealStaged_follows h
  setPublishing s m w h := congr s _ (by rw [State.setPublishing_eq]) h
  setExpected s p x h := congr s _ (by simp) h
  setAdmission s _ h := congr s _ rfl h
  chainStart _ s _ _ _ _ h := congr s _ rfl h
  chainStop _ s _ h := follows s _ s.stopChain_follows h
  fetch _ s h := congr s _ rfl h
  memberAnswer _ s e rest st hd r _ h := congr s _ (State.pend_leases (s.dequeued rest) e st hd r).1 h
  memberGrant _ s e rest i l ev st hd r _ hl hg h := by
    have hgranted := grant (s.dequeued rest) i l ev hl hg (congr s _ rfl h)
    refine congr _ _ ?_ hgranted
    rw [(State.pend_leases _ _ _ _ _).1, State.onEntry_leases, State.onEntry_leases]
    rfl
  memberCreate _ s e rest owner f i ev st hd r _ hcr h := by
    have hcreated := create (s.dequeued rest) owner f i ev hcr (congr s _ rfl h)
    refine congr _ _ ?_ hcreated
    rw [(State.pend_leases _ _ _ _ _).1, State.onEntry_leases, State.onEntry_leases]
    rfl
  application s set _ h := follows s _ (s.applySet_follows set) h
  expiry s i _ h := follows s _ (.onEntry ((Entry.takes_expire _ _).mono Course.calm_le)) h
  expiries s _ h := follows s _ (.onEveryEntry fun _ => (Entry.takes_expire _ _).mono Course.calm_le) h
  windowEnd s _ _ h := follows s _ s.endWindow_follows h
  choice s _ _ h := congr s _ s.chooseMessage_chooses.attention.1 h
  drive s _ _ h := congr s _ rfl h
  word s w _ h := follows s _ ((s.takeWord_follows w).mono Course.calm_le) h
  frameStart s _ h := congr s _ rfl h
  slot s i l k bits hl _ h := follows s _ ((State.takeSlot_follows hl k bits).mono Course.calm_le) h
  miss s p _ h := follows s _ ((s.takeMiss_follows p).mono Course.calm_le) h
  period s _ _ h := congr s _ rfl h

theorem Lease.lawful_of_course {l l' : Lease} (h : Relation.ReflTransGen Course.ordinary.change l l') (hl : l.Lawful) :
    l'.Lawful ∧ l.SameAs l' :=
  ⟨by induction h with
      | refl => exact hl
      | tail _ hc ih => exact hc.lawful ih,
    Lease.sameAs_of_course (Relation.ReflTransGen.mono Course.ordinary_le.change _ _ h)⟩

theorem State.TableLawful.congr (h : t.leases = s.leases) (hs : s.TableLawful) : t.TableLawful where
  leases i l hl := hs.leases i l ((State.lease?_congr h i).symm.trans hl)
  streams i j l m hl hm :=
    hs.streams i j l m ((State.lease?_congr h i).symm.trans hl) ((State.lease?_congr h j).symm.trans hm)

theorem State.TableLawful.follows (h : s.Follows Course.ordinary t) (hs : s.TableLawful) : t.TableLawful where
  leases i l' hl' := by
    obtain ⟨l, hl, hc⟩ := h.held hl'
    exact (Lease.lawful_of_course hc (hs.leases i l hl)).1
  streams i j l' m' hl' hm' heq := by
    obtain ⟨l, hl, hc⟩ := h.held hl'
    obtain ⟨m, hm, hd⟩ := h.held hm'
    have hcl := (Lease.lawful_of_course hc (hs.leases i l hl)).2.1
    have hdm := (Lease.lawful_of_course hd (hs.leases j m hm)).2.1
    exact hs.streams i j l m hl hm (by rw [← hcl, ← hdm, heq])

/-- An entry takes a lawful lease whose stream no other entry has. -/
theorem State.TableLawful.onEntry {l' : Lease} (hs : s.TableLawful) (hev : ev.entry.lease = some l') (hl' : l'.Lawful)
    (hn : ∀ j m, j ≠ i → s.lease? j = some m → m.stream ≠ l'.stream) : (s.onEntry i ev).TableLawful where
  leases j m hm := by
    rw [State.lease?_onEntry] at hm
    split at hm
    · exact Option.some.inj (hev.symm.trans hm) ▸ hl'
    · exact hs.leases j m hm
  streams j k m n hm hn' heq := by
    rw [State.lease?_onEntry] at hm hn'
    split at hm <;> split at hn'
    · next hj hk => exact hj.trans hk.symm
    · next hj hk =>
      cases hev.symm.trans hm
      exact absurd heq.symm (hn k n hk hn')
    · next hj hk =>
      cases hev.symm.trans hn'
      exact absurd heq (hn j m hj hm)
    · exact hs.streams j k m n hm hn' heq

/-- What the Placement Unit gives is lawful when what it is given is, but for the placement (R7, R8, R32). -/
theorem State.placeFor_lawful {d : Direction} {source : Position} {c₀ c : Configuration} {tried : Option Nat}
    (hp : s.placeFor i d source c₀ tried = some c) (hn : 1 ≤ c₀.count ∧ c₀.count ≤ 8)
    (side : ∀ p : Position, hasListener c₀.listeners p = true → onSide d source p = true) : c.Lawful d source := by
  rcases s.placeFor_cases i d source c₀ tried hn.1 with ⟨h0, h⟩ | ⟨h0, o, h, hf⟩ | ⟨-, h, -⟩
  · cases hp.symm.trans h
    exact ⟨hn, by simp [h0], side, by simp⟩
  · cases hp.symm.trans h
    refine ⟨hn, by simpa using h0, side, ?_⟩
    rintro o ⟨⟩
    exact hf.1.1
  · cases hp.symm.trans h

theorem hasListener_withListener (l : Listeners) (p q : Position) :
    hasListener (withListener l p) q = (hasListener l q || decide (q = p)) := by
  unfold hasListener withListener
  rw [BitVec.getLsbD_or, BitVec.getLsbD_twoPow]
  by_cases h : q = p
  · simp [h]
  · have hv : p.val ≠ q.val := fun hv => h (Fin.ext hv).symm
    simp [h, hv]

theorem State.Builds.live {l : Lease} {c₀ c : Configuration} (h : s.Builds i l c₀ c) : l.mark = none := by
  cases h <;> assumption

theorem State.Builds.placed {l : Lease} {c₀ c : Configuration} (h : s.Builds i l c₀ c) :
    s.placeFor i l.direction l.source c₀ l.latest.placement = some c := by
  cases h <;> assumption

theorem State.Builds.lawful {l : Lease} {c₀ c : Configuration} (h : s.Builds i l c₀ c) (hl : l.Lawful) :
    c.Lawful l.direction l.source := by
  cases h with
  | shape w n c _ hn _ hp => exact State.placeFor_lawful hp hn hl.latest.side
  | listen p c _ _ hs _ _ hp =>
    refine State.placeFor_lawful hp hl.latest.count fun q hq => ?_
    simp only [Lease.extended, hasListener_withListener, Bool.or_eq_true, decide_eq_true_eq] at hq
    rcases hq with hq | rfl
    · exact hl.latest.side q hq
    · exact hs

end

/-- The lease that a CREATE makes, with its first listeners staged at an offset that fits, is lawful (R6, R53). -/
theorem CreateFields.lease_lawful {s : State} {owner : Position} {f : CreateFields} (ha : s.CreateAllowed owner f)
    (hf : f.stream ≠ 0 ∧ 1 ≤ f.count ∧ f.count ≤ 8) (n : FrameNumber) {staged : Option Configuration}
    (hst : ∀ c, staged = some c → c.Lawful f.direction f.source) :
    ({ f.lease owner n with staged } : Lease).Lawful where
  source := ha.upSource
  configs := Lease.configs_lawful ⟨hf.2, by simp [CreateFields.lease], fun p hp => by simp [CreateFields.lease, hasListener] at hp,
    by simp [CreateFields.lease]⟩ (by simp [CreateFields.lease]) hst
  retiring := iff_of_false (by simp [CreateFields.lease]) (by simp [Lease.state, CreateFields.lease])
  going h := by simp [Lease.state, CreateFields.lease] at h
  expiry := expiryFrom_eq_none
  standing h := by_contra fun ho => ha.term ho h
  stream := hf.1

theorem State.reset_lease? (i : LeaseIndex) : State.reset.lease? i = none := by simp [State.lease?, State.reset]

theorem kept_tableLawful (c : Instr) : Kept c State.TableLawful := by
  refine kept_of_table c (fun _ _ => .congr) (fun _ _ => .follows) (fun s i l ev hl hg hs => ?_) (fun s owner f i ev hcr hs => ?_) ?_
  · have unique {l' : Lease} (h : l'.stream = l.stream) : ∀ j m, j ≠ i → s.lease? j = some m → m.stream ≠ l'.stream :=
      fun j m hj hm heq => hj (hs.streams j i m l hm hl (heq.trans h))
    have hlaw := hs.leases i l hl
    rcases hg.takes hl with ht | ⟨base, rfl, -⟩ | ⟨c₀, c, rfl, hb⟩
    · exact hs.follows (.onEntry (ht.mono Course.calm_le))
    · refine hs.onEntry (l' := { l with base }) rfl ?_ (unique rfl)
      exact ⟨hlaw.source, hlaw.configs, hlaw.retiring, hlaw.going, hlaw.expiry, hlaw.standing, hlaw.stream⟩
    · have hlive : l.state ≠ .going := by simp [Lease.state_live_iff.2 hb.live]
      exact hs.onEntry (by rw [adoptEvent_entry]) (hlaw.adopt hlive (hb.lawful hlaw)) (unique (l.adopt_identity c).1)
  · have unused {l' : Lease} (h : l'.stream = f.stream) (ha : s.CreateAllowed owner f) :
        ∀ j m, j ≠ i → s.lease? j = some m → m.stream ≠ l'.stream := fun j m _ hm => h ▸ ha.stream j m hm
    cases hcr with
    | bare hfree ha hf =>
      exact hs.onEntry rfl (CreateFields.lease_lawful ha hf _ (staged := none) (by simp)) (unused rfl ha)
    | listened hfree ha hf h0 o ho =>
      refine hs.onEntry rfl (CreateFields.lease_lawful ha hf _ (staged := some { f.config with placement := some o }) ?_)
        (unused rfl ha)
      rintro c ⟨⟩
      refine ⟨hf.2, by simpa [CreateFields.config] using h0, ha.side, ?_⟩
      rintro o' ⟨⟩
      exact ho.1
  · exact ⟨fun i l hl => absurd (hl.symm.trans (State.reset_lease? i)) (by simp),
      fun i _ l _ hl => absurd (hl.symm.trans (State.reset_lease? i)) (by simp)⟩

/-- What every command keeps of the device, whatever waits in the queue of commands, every step keeps. -/
theorem step_keeps {P : State → Prop} (kept : ∀ c, Kept c P) (congr : ∀ (s : State) (cs : List Instr), P s → P { s with pending := cs })
    {s t : State} (hs : P s) (h : step s = .next t) : P t := by
  unfold step at h
  split at h
  · exact Host.Outcome.next.inj h ▸ hs
  · next c rest _ => exact (kept c).exec h (congr s rest hs)

/-- Settles O53: each change of a lease keeps its record lawful, and only a CREATE brings in a stream. -/
theorem stepsKeepTheTable : Obligations.StepsKeepTheTable :=
  fun _ _ hs h => step_keeps kept_tableLawful (fun s _ => State.TableLawful.congr (s := s) rfl) hs h

/-! ## The local channels (R11, R61) -/

theorem Lease.adopt_base (l : Lease) (c : Configuration) : (l.adopt c).base = l.base := by
  unfold Lease.adopt
  split <;> rfl

theorem Lease.Reserves.mono {l l' : Lease} (hb : l'.base = l.base) (hn : l'.largestCount ≤ l.largestCount) {c : Nat}
    (h : l'.Reserves c) : l.Reserves c := by
  obtain ⟨b, hb', hle, hlt⟩ := h
  exact ⟨b, hb.symm.trans hb', hle, by omega⟩

/-- A change reserves no channel more. -/
theorem Lease.Changes.reserves {l l' : Lease} (h : l.Changes l') {c : Nat} (hr : l'.Reserves c) : l.Reserves c := by
  refine hr.mono ?_ (Lease.largestCount_le fun d hd => ?_)
  · cases h with
    | tends _ h =>
      cases h with
      | reduced => exact l.adopt_base _
      | _ => rfl
    | _ => rfl
  · obtain ⟨d', hd', hw⟩ := h.within d hd
    exact hw.count ▸ Lease.le_largestCount hd'

section
variable {s t : State} {i : LeaseIndex} {ev : EntryEvent}

theorem State.ChannelsLawful.congr (h : t.leases = s.leases) (hs : s.ChannelsLawful) : t.ChannelsLawful where
  within i l c hl := hs.within i l c ((State.lease?_congr h i).symm.trans hl)
  apart i j l m c hl hm :=
    hs.apart i j l m c ((State.lease?_congr h i).symm.trans hl) ((State.lease?_congr h j).symm.trans hm)

theorem Lease.reserves_of_course {l l' : Lease} (h : Relation.ReflTransGen Course.ordinary.change l l') {c : Nat} (hr : l'.Reserves c) :
    l.Reserves c := by
  induction h with
  | refl => exact hr
  | tail _ hc ih => exact ih (hc.reserves hr)

theorem State.ChannelsLawful.follows (h : s.Follows Course.ordinary t) (hs : s.ChannelsLawful) : t.ChannelsLawful where
  within i l' c hl' hr := by
    obtain ⟨l, hl, hc⟩ := h.held hl'
    exact hs.within i l c hl (Lease.reserves_of_course hc hr)
  apart i j l' m' c hl' hm' hr hr' := by
    obtain ⟨l, hl, hc⟩ := h.held hl'
    obtain ⟨m, hm, hd⟩ := h.held hm'
    exact hs.apart i j l m c hl hm (Lease.reserves_of_course hc hr) (Lease.reserves_of_course hd hr')

/-- An entry takes a lease whose channels no other lease reserves. -/
theorem State.ChannelsLawful.onEntry {l' : Lease} (hs : s.ChannelsLawful) (hev : ev.entry.lease = some l')
    (hfree : ∀ c, l'.Reserves c → c < 32 ∧ s.ChannelFreeFor (some i) c) : (s.onEntry i ev).ChannelsLawful where
  within j m c hm hr := by
    rw [State.lease?_onEntry] at hm
    split at hm
    · cases hev.symm.trans hm
      exact (hfree c hr).1
    · exact hs.within j m c hm hr
  apart j k m n c hm hn hr hr' := by
    have others {x : LeaseIndex} {y : Lease} (hx : x ≠ i) (hy : s.lease? x = some y) (hyr : y.Reserves c) (hlr : l'.Reserves c) :
        False := by
      obtain ⟨b, hb, hle, hlt⟩ := hyr
      exact (hfree c hlr).2 x y (by simpa using hx) hy b hb ⟨hle, hlt⟩
    rw [State.lease?_onEntry] at hm hn
    split at hm <;> split at hn
    · next hj hk => exact hj.trans hk.symm
    · next hj hk =>
      cases hev.symm.trans hm
      exact (others hk hn hr' hr).elim
    · next hj hk =>
      cases hev.symm.trans hn
      exact (others hj hm hr hr').elim
    · exact hs.apart j k m n c hm hn hr hr'

/-- Channels that the lease itself reserves are free for it. -/
theorem State.ChannelsLawful.freeFor (hs : s.ChannelsLawful) {l : Lease} (hl : s.lease? i = some l) {c : Nat}
    (hr : l.Reserves c) : c < 32 ∧ s.ChannelFreeFor (some i) c := by
  refine ⟨hs.within i l c hl hr, fun j m hj hm b hb hbc => hj ?_⟩
  exact congrArg some (hs.apart j i m l c hm hl ⟨b, hb, hbc⟩ hr)

/-- The channels of a range that passed the check are free for the lease (R50, R61). -/
theorem State.ChannelsLawful.freeFor_of_check (hs : s.ChannelsLawful) {b n : Nat}
    (h : s.channelCheck (fun j => j == i) b n = .ok ()) {c : Nat} (hle : b ≤ c) (hlt : c < b + n) :
    c < 32 ∧ s.ChannelFreeFor (some i) c := by
  unfold State.channelCheck at h
  split at h
  · cases h
  · next hin =>
    split at h
    · next hall =>
      refine ⟨by omega, State.channelMap_all (fun j hj => ?_) hs⟩
      have hk := List.all_eq_true.1 hall (c - b) (List.mem_range.2 (by omega))
      rw [show b + (c - b) = c by omega, hj] at hk
      exact congrArg some (by simpa using hk)
    · cases h

/-- The placement of a new configuration does not count for the channels that its lease reserves. -/
theorem Lease.largestCount_adopt {l : Lease} {c d : Configuration} (hc : c.count = d.count) (hl : c.listeners = d.listeners) :
    (l.adopt c).largestCount = (l.adopt d).largestCount := by
  have hat : l.atOnce c = l.atOnce d := by simp only [Lease.atOnce, hl]
  unfold Lease.adopt
  rw [hat]
  split
  · unfold Lease.largestCount Lease.configurations Lease.sealedConfig
    cases l.sealed with
    | none => simp [hc]
    | some x => cases x <;> simp [hc]
  · simp [Lease.largestCount, Lease.configurations, Lease.sealedConfig, hc]

theorem State.placeFor_same {d : Direction} {source : Position} {c₀ c : Configuration} {tried : Option Nat}
    (hp : s.placeFor i d source c₀ tried = some c) : c.width = c₀.width ∧ c.count = c₀.count ∧ c.listeners = c₀.listeners := by
  unfold State.placeFor at hp
  repeat' split at hp
  all_goals cases hp
  all_goals exact ⟨rfl, rfl, rfl⟩

/-- A lease reserves with a new configuration only channels that are its own or were found free (R158). -/
theorem State.Builds.channels {l : Lease} {c₀ c : Configuration} (h : s.Builds i l c₀ c) (hs : s.ChannelsLawful)
    (hl : s.lease? i = some l) {x : Nat} (hr : (l.adopt c).Reserves x) : x < 32 ∧ s.ChannelFreeFor (some i) x := by
  obtain ⟨-, hcount, hlisteners⟩ := State.placeFor_same h.placed
  cases h with
  | shape w n c _ _ hch =>
    obtain ⟨b, hb, hle, hlt⟩ := hr
    rw [l.adopt_base] at hb
    simp only [State.shapeChannels, hb] at hch
    rw [Lease.largestCount_adopt hcount hlisteners] at hlt
    exact hs.freeFor_of_check hch hle hlt
  | listen p c =>
    refine hs.freeFor hl (hr.mono (l.adopt_base c) (Lease.largestCount_le fun d hd => ?_))
    rcases Lease.mem_adopt hd with rfl | hd
    · exact (show d.count = l.latest.count from hcount).le.trans (Lease.le_largestCount l.latest_mem)
    · exact Lease.le_largestCount hd

end

theorem kept_channelsLawful (c : Instr) : Kept c State.ChannelsLawful := by
  refine kept_of_table c (fun _ _ => .congr) (fun _ _ => .follows) (fun s i l ev hl hg hs => ?_) (fun s owner f i ev hcr hs => ?_) ?_
  · rcases hg.takes hl with ht | ⟨base, rfl, -, hch⟩ | ⟨c₀, c, rfl, hb⟩
    · exact hs.follows (.onEntry (ht.mono Course.calm_le))
    · refine hs.onEntry (l' := { l with base }) rfl fun c hr => ?_
      obtain ⟨b, hb, hle, hlt⟩ := hr
      exact hs.freeFor_of_check (hch b hb) hle hlt
    · exact hs.onEntry (by rw [adoptEvent_entry]) fun x hr => hb.channels hs hl hr
  · have reserved {l' : Lease} (hb : l'.base = f.base) (hn : l'.largestCount ≤ f.count) (ha : s.CreateAllowed owner f) :
        ∀ x, l'.Reserves x → x < 32 ∧ s.ChannelFreeFor (some i) x := by
      rintro x ⟨b, hb', hle, hlt⟩
      obtain ⟨hin, hfree⟩ := ha.channels b (hb.symm.trans hb')
      have hx := hfree (x - b.val) (by omega)
      rw [show b.val + (x - b.val) = x by omega] at hx
      exact ⟨by omega, fun j m _ => hx j m (by simp)⟩
    cases hcr with
    | bare hfree ha => exact hs.onEntry rfl (reserved rfl (Lease.largestCount_le (by simp [CreateFields.lease, Lease.configurations, Lease.sealedConfig])) ha)
    | listened hfree ha _ _ o =>
      exact hs.onEntry rfl (reserved rfl (Lease.largestCount_le (by simp [CreateFields.lease, CreateFields.config, Lease.configurations, Lease.sealedConfig])) ha)
  · exact ⟨fun i l _ hl => absurd (hl.symm.trans (State.reset_lease? i)) (by simp),
      fun i _ l _ _ hl => absurd (hl.symm.trans (State.reset_lease? i)) (by simp)⟩

/-- Settles O54: a change reserves no channel more, and what reserves more has passed the channel check. -/
theorem stepsKeepTheChannels : Obligations.StepsKeepTheChannels :=
  fun _ _ hs h => step_keeps kept_channelsLawful (fun s _ => State.ChannelsLawful.congr (s := s) rfl) hs h

end Sys2Proof.Machine
end

section
/-! PROOFS. The claims of a lease and what a calm event leaves of a lease (R25, R28, R34). -/

namespace Sys2Proof.Machine

/-! ## Runs within runs -/

/-- Every bit of one run is a bit of the other. -/
def Run.Inside (a b : Run) : Prop := ∀ hop bit, a.Covers hop bit → b.Covers hop bit

theorem Run.Inside.refl (a : Run) : a.Inside a := fun _ _ => id

theorem Run.Inside.trans {a b c : Run} (h : a.Inside b) (h' : b.Inside c) : a.Inside c := fun hop bit hc => h' hop bit (h hop bit hc)

theorem Run.Apart.inside {a a' b b' : Run} (h : a.Apart b) (ha : a'.Inside a) (hb : b'.Inside b) : a'.Apart b' :=
  fun hop bit hc => h hop bit ⟨ha hop bit hc.1, hb hop bit hc.2⟩

/-- The highest listener is no lower than any, and is one unless there is none (R25). -/
theorem highestListener_spec (l : Listeners) :
    (∀ p, p < 16 → l.getLsbD p = true → p ≤ highestListener l)
      ∧ (highestListener l = 0 ∨ (highestListener l < 16 ∧ l.getLsbD (highestListener l) = true)) := by
  have spec (n : Nat) : let r := (List.range n).foldl (fun a p => if l.getLsbD p then p else a) 0
      (∀ p, p < n → l.getLsbD p = true → p ≤ r) ∧ (r = 0 ∨ (r < n ∧ l.getLsbD r = true)) := by
    induction n with
    | zero => exact ⟨fun p hp => absurd hp (by omega), .inl rfl⟩
    | succ n ih =>
      obtain ⟨hle, hat⟩ := ih
      simp only [List.range_succ, List.foldl_append, List.foldl_cons, List.foldl_nil]
      split
      · next hn => exact ⟨fun p hp _ => by omega, .inr ⟨by omega, hn⟩⟩
      · next hn =>
        refine ⟨fun p hp hb => hle p (Nat.lt_of_le_of_ne (by omega) fun he => hn (he ▸ hb)) hb, hat.imp_right fun h => ⟨by omega, h.2⟩⟩
  exact spec 16

/-- The lowest listener of a set that has one (R25). -/
theorem lowestListener_spec {l : Listeners} {p : Nat} (hp : p < 16) (h : l.getLsbD p = true) :
    lowestListener l ≤ p ∧ l.getLsbD (lowestListener l) = true := by
  unfold lowestListener
  cases hf : (List.range 16).find? fun p => l.getLsbD p with
  | none =>
    rw [List.find?_eq_none] at hf
    exact absurd h (hf p (List.mem_range.2 hp))
  | some q =>
    rw [List.find?_range_eq_some] at hf
    refine ⟨?_, hf.1⟩
    by_contra hlt
    have := hf.2.2 p (by simpa using hlt)
    simp [h] at this

/-- A smaller set of listeners spans no more hops (R25, R34). -/
theorem spanOf_sub {a b : Listeners} (h : ∀ p, hasListener a p = true → hasListener b p = true) (ha : a ≠ 0) (d : Direction)
    (source : Position) : (spanOf d source b).1 ≤ (spanOf d source a).1 ∧ (spanOf d source a).2 ≤ (spanOf d source b).2 := by
  have sub {p : Nat} (hp : p < 16) (hb : a.getLsbD p = true) : b.getLsbD p = true := h ⟨p, hp⟩ hb
  cases d with
  | down =>
    refine ⟨le_rfl, ?_⟩
    rcases (highestListener_spec a).2 with h0 | ⟨hlt, hat⟩
    · exact h0.le.trans (Nat.zero_le _)
    · exact (highestListener_spec b).1 _ hlt (sub hlt hat)
  | up =>
    refine ⟨?_, le_rfl⟩
    obtain ⟨p, hp⟩ := listeners_ne_zero_iff.1 ha
    obtain ⟨hle, hat⟩ := lowestListener_spec p.isLt hp
    have hlt : lowestListener a < 16 := lt_of_le_of_lt hle p.isLt
    exact (lowestListener_spec hlt (sub hlt hat)).1

theorem Configuration.run?_some {c : Configuration} {d : Direction} {source : Position} {a : Run} :
    c.run? d source = some a ↔ c.listeners ≠ 0 ∧ ∃ o, c.placement = some o ∧ c.runAt d source o = a := by
  unfold Configuration.run?
  split
  · next h => simp [h]
  · next h =>
    rw [Option.map_eq_some_iff]
    exact ⟨fun hx => ⟨h, hx⟩, fun hx => hx.2⟩

theorem Configuration.run?_shrunkTo {c : Configuration} {left : Listeners} {d : Direction} {source : Position} {a : Run}
    (sub : ∀ p, hasListener left p = true → hasListener c.listeners p = true) (h : (c.shrunkTo left).run? d source = some a) :
    ∃ b, c.run? d source = some b ∧ a.Inside b := by
  obtain ⟨h0, o, ho, rfl⟩ := Configuration.run?_some.1 h
  have hleft : left ≠ 0 := h0
  simp only [Configuration.shrunkTo, hleft, if_false] at ho
  refine ⟨_, Configuration.run?_some.2 ⟨listeners_ne_zero_of_sub sub hleft, o, ho, rfl⟩, fun hop bit hc => ?_⟩
  obtain ⟨h₁, h₂⟩ := spanOf_sub sub hleft d source
  exact ⟨le_trans h₁ hc.1, lt_of_lt_of_le hc.2.1 h₂, hc.2.2⟩

/-! ## The claims of a lease (R28) -/

section
variable {l l' : Lease} {c : Configuration} {a : Run}

theorem Lease.mem_claiming : c ∈ l.claiming ↔ (l.sealed = none ∧ c = l.active) ∨ l.sealed = some (.config c) ∨ l.staged = some c := by
  unfold Lease.claiming
  cases hs : l.sealed with
  | none => simp [Lease.sealedConfig, hs]
  | some x => cases x <;> simp [Lease.sealedConfig, hs, eq_comm]

theorem Lease.mem_claims : a ∈ l.claims ↔ ∃ c ∈ l.claiming, c.run? l.direction l.source = some a := by
  simp [Lease.claims, List.mem_filterMap]

/-- A lease without a sealed retirement claims the bits of its latest configuration. -/
theorem Lease.latest_claiming (h : l.sealed ≠ some .retirement) : l.latest ∈ l.claiming := by
  rw [Lease.mem_claiming]
  unfold Lease.latest
  split
  · next c hc => exact .inr (.inr hc)
  · split
    · next c hc => exact .inr (.inl (Lease.sealedConfig_some.1 hc))
    · next hc =>
      refine .inl ⟨?_, rfl⟩
      cases hs : l.sealed with
      | none => rfl
      | some x => cases x <;> simp_all [Lease.sealedConfig]

/-- What a lease claims once it has adopted a configuration: what it claimed, and the run of that configuration. -/
theorem Lease.claims_adopt (h : a ∈ (l.adopt c).claims) : a ∈ l.claims ∨ c.run? l.direction l.source = some a := by
  obtain ⟨d, hd, hr⟩ := Lease.mem_claims.1 h
  obtain ⟨-, -, hs, hdir⟩ := l.adopt_identity c
  rw [hs, hdir] at hr
  rw [Lease.mem_claiming] at hd
  unfold Lease.adopt at hd
  split at hd
  · rcases hd with ⟨-, rfl⟩ | hd | hd
    · exact .inr hr
    · exact .inl (Lease.mem_claims.2 ⟨d, Lease.mem_claiming.2 (.inr (.inl hd)), hr⟩)
    · obtain ⟨_, -, rfl⟩ := Option.map_eq_some_iff.1 hd
      exact .inr hr
  · rcases hd with hd | hd | hd
    · exact .inl (Lease.mem_claims.2 ⟨d, Lease.mem_claiming.2 (.inl hd), hr⟩)
    · exact .inl (Lease.mem_claims.2 ⟨d, Lease.mem_claiming.2 (.inr (.inl hd)), hr⟩)
    · exact .inr (Option.some.inj hd ▸ hr)

theorem Lease.active_adopt {d : Direction} {source : Position} (h : (l.adopt c).active.run? d source = some a) :
    l.active.run? d source = some a := by
  unfold Lease.adopt at h
  split at h
  · next ha => exact absurd (Lease.atOnce_iff.1 ha).2 (Configuration.run?_some.1 h).1
  · exact h

theorem Lease.adopt_sealed : (l.adopt c).sealed = l.sealed ∧ (l.adopt c).mark = l.mark := by
  unfold Lease.adopt
  split <;> exact ⟨rfl, rfl⟩

/-! ## What a calm event leaves of a lease -/

/-- A lease keeps to what it was: it claims no bit more and names no position more, and what is in flight stands. -/
structure Lease.Keeps (l l' : Lease) : Prop where
  same    : l.SameAs l'
  claims  : ∀ a ∈ l'.claims, ∃ b ∈ l.claims, a.Inside b
  active  : ∀ a, l'.active.run? l.direction l.source = some a → l.active.run? l.direction l.source = some a
  sealed  : l'.sealed = l.sealed
  mark    : ∀ cause, l.mark = some ⟨cause, .sealed⟩ → l'.mark = l.mark
  listens : ∀ p, l'.listensAt p = true → l.listensAt p = true

theorem Lease.Keeps.refl (l : Lease) : l.Keeps l :=
  ⟨⟨rfl, rfl, rfl, rfl⟩, fun a ha => ⟨a, ha, .refl a⟩, fun _ => id, rfl, fun _ _ => rfl, fun _ => id⟩

theorem Lease.Keeps.trans {l'' : Lease} (h : l.Keeps l') (h' : l'.Keeps l'') : l.Keeps l'' where
  same := ⟨h'.same.1.trans h.same.1, h'.same.2.1.trans h.same.2.1, h'.same.2.2.1.trans h.same.2.2.1, h'.same.2.2.2.trans h.same.2.2.2⟩
  claims a ha := by
    obtain ⟨b, hb, hab⟩ := h'.claims a ha
    obtain ⟨c, hc, hbc⟩ := h.claims b hb
    exact ⟨c, hc, hab.trans hbc⟩
  active a ha := h.active a (by
    have := h'.active a
    rw [h.same.2.2.1, h.same.2.2.2] at this
    exact this ha)
  sealed := h'.sealed.trans h.sealed
  mark cause hm := (h'.mark cause ((h.mark cause hm).trans hm)).trans (h.mark cause hm)
  listens p hp := h.listens p (h'.listens p hp)

theorem Lease.Tends.keeps (h : l.Tends l') (hl : l.Lawful) : l.Keeps l' := by
  have shrunk {left : Listeners} {a : Run} (hg : l.state ≠ .going)
      (sub : ∀ p, hasListener left p = true → hasListener l.latest.listeners p = true)
      (ha : (l.latest.shrunkTo left).run? l.direction l.source = some a) : ∃ b ∈ l.claims, a.Inside b := by
    obtain ⟨b, hb, hab⟩ := Configuration.run?_shrunkTo sub ha
    exact ⟨b, Lease.mem_claims.2 ⟨_, Lease.latest_claiming (hl.sealed_ne hg), hb⟩, hab⟩
  have listens (p : Position) (hp : l'.listensAt p = true) : l.listensAt p = true := by
    obtain ⟨c, hc, hcp⟩ := Lease.listensAt_iff.1 hp
    obtain ⟨d, hd, hw⟩ := (Lease.Changes.tends l' h).within c hc
    exact Lease.listensAt_iff.2 ⟨d, hd, hw.sub p hcp⟩
  have same : l.SameAs l' := (Lease.Moves.changes l' (.tends l' h)).identity
  cases h with
  | marked cause hm =>
    refine ⟨same, fun a ha => ⟨a, ha, .refl a⟩, fun _ => id, rfl, fun cause' hs => ?_, listens⟩
    rcases hm with hm | hm <;> simp [hm] at hs
  | renewed n t hm =>
    refine ⟨same, fun a ha => ⟨a, ha, .refl a⟩, fun _ => id, rfl, fun cause' hs => ?_, listens⟩
    rcases hm with hm | hm <;> simp [hm] at hs
  | flagged => exact ⟨same, fun a ha => ⟨a, ha, .refl a⟩, fun _ => id, rfl, fun _ _ => rfl, listens⟩
  | reduced left hm sub =>
    refine ⟨same, fun a ha => ?_, fun _ => Lease.active_adopt, Lease.adopt_sealed.1, fun _ _ => Lease.adopt_sealed.2, listens⟩
    rcases Lease.claims_adopt ha with ha | ha
    · exact ⟨a, ha, .refl a⟩
    · exact shrunk (Lease.not_going (.inl hm)) sub ha
  | cleaned left hg sub =>
    refine ⟨same, fun a ha => ?_, fun _ => id, rfl, fun _ _ => rfl, listens⟩
    obtain ⟨c, hc, hr⟩ := Lease.mem_claims.1 ha
    rcases Lease.mem_claiming.1 hc with hc | hc | hc
    · exact ⟨a, Lease.mem_claims.2 ⟨c, Lease.mem_claiming.2 (.inl hc), hr⟩, .refl a⟩
    · exact ⟨a, Lease.mem_claims.2 ⟨c, Lease.mem_claiming.2 (.inr (.inl hc)), hr⟩, .refl a⟩
    · exact shrunk hg sub (Option.some.inj hc ▸ hr)

end

/-- A calm event leaves of an entry its lease, kept to what it was, or nothing, if nothing of it was in flight. -/
theorem Entry.Evolves.calm {e e' : Entry} (h : e.Evolves Course.calm e') {l : Lease} (he : e.lease = some l) (hl : l.Lawful) :
    (∃ l', e' = ⟨e.generation, some l'⟩ ∧ l.Keeps l' ∧ l'.Lawful) ∨ (e'.lease = none ∧ l.sealed = none) := by
  induction h generalizing l with
  | stays e => exact .inl ⟨l, by cases e; cases he; rfl, .refl l, hl⟩
  | change e m m' hm hc =>
    cases he.symm.trans hm
    exact .inl ⟨m', rfl, hc.keeps hl, hc.lawful hl⟩
  | freed e m hm hends =>
    cases he.symm.trans hm
    exact .inr ⟨rfl, hends⟩
  | @trans a b c hab hbc ih ih' =>
    rcases ih he hl with ⟨m, hb, hk, hm⟩ | ⟨hb, hs⟩
    · rcases ih' (congrArg Entry.lease hb) hm with ⟨m', hc, hk', hm'⟩ | ⟨hc, hs⟩
      · exact .inl ⟨m', by rw [hc, hb], hk.trans hk', hm'⟩
      · exact .inr ⟨hc, hk.sealed.symm.trans hs⟩
    · exact .inr ⟨by rw [hbc.of_free hb, hb], hs⟩

end Sys2Proof.Machine
end

section
/-! PROOFS. The laws that speak of more than one block, law by law: on what of the state each depends, and what keeps it. -/

namespace Sys2Proof.Machine

/-- The laws that speak of more than one block, but for that of a stopped chain. -/
structure State.Works (s : State) : Prop where
  layout    : s.LayoutLawful
  members   : s.MembersLawful
  queue     : s.QueueLawful
  names     : s.NamesLawful
  publisher : s.PublisherLawful

theorem State.Lawful.works {s : State} (h : s.Lawful) : s.Works := ⟨h.layout, h.members, h.queue, h.names, h.publisher⟩

section
variable {s t : State}

/-! ## The member runs and the request queue -/

theorem State.joined_iff {p : Position} : s.joined p = true ↔ (s.member p).state = .joined := by simp [State.joined]

theorem State.joined_congr {p : Position} (h : (t.member p).state = (s.member p).state) : t.joined p = s.joined p := by
  unfold State.joined
  rw [h]

theorem State.joined_ne_zero {p : Position} (h : s.joined p = true) : p ≠ 0 := by
  rintro rfl
  simp [State.joined, Member.vacant] at h

/-- The frame waits for a response to an open call or an ASSIGN (R116, R120). -/
def Message.Admits (m : Message) : Prop := (∃ q, m = .openCall q) ∨ ∃ q, m = .addressed .assign q

/-- The member runs depend on the states of the members, on what the frame waits for, and on the waiting ASSIGNs. -/
theorem State.MembersLawful.congr (hs : s.MembersLawful) (hst : ∀ p, (t.member p).state = (s.member p).state)
    (hu : ∀ m, t.unanswered = some m → m.Admits → s.unanswered = some m)
    (hd : ∀ p, .assign p ∈ t.chain.delivery → .assign p ∈ s.chain.delivery) : t.MembersLawful where
  runs p h0 h15 := by rw [hst, hst]; exact hs.runs p h0 h15
  called q h := by
    rw [hst, State.joined_congr (hst _)]
    exact hs.called q (hu _ h (.inl ⟨q, rfl⟩))
  assigned p h := by rw [hst]; exact hs.assigned p (hu _ h (.inr ⟨p, rfl⟩))
  waiting p h := by rw [hst]; exact hs.waiting p (hd p h)

theorem State.queued_iff {p : Position} : s.queued p = true ↔ p ∈ s.engine.queue.map QueueEntry.position := by
  simp [State.queued]

theorem State.queued_congr (h : t.engine.queue.map QueueEntry.position = s.engine.queue.map QueueEntry.position) (p : Position) :
    t.queued p = s.queued p := by
  rw [Bool.eq_iff_iff, State.queued_iff, State.queued_iff, h]

/-- The law of the queue depends on the positions that wait in it, on the states and the answers of the members, and on
what waits for the control slot. -/
theorem State.QueueLawful.congr (hs : s.QueueLawful) (hst : ∀ p, (t.member p).state = (s.member p).state)
    (hans : ∀ p, (t.member p).answer ≠ none ↔ (s.member p).answer ≠ none)
    (hq : t.engine.queue.map QueueEntry.position = s.engine.queue.map QueueEntry.position)
    (hd : t.chain.delivery.Perm s.chain.delivery) : t.QueueLawful where
  joined e he := by
    have hmem : e.position ∈ s.engine.queue.map QueueEntry.position := hq ▸ List.mem_map_of_mem he
    obtain ⟨e', he', hpos⟩ := List.mem_map.1 hmem
    rw [State.joined_congr (hst _), ← hpos]
    exact hs.joined e' he'
  once := hq ▸ hs.once
  answers p h := by
    rw [State.joined_congr (hst p), State.queued_congr hq]
    exact hs.answers p ((hans p).1 h)
  answerDue p := by rw [hd.mem_iff, hans, hs.answerDue]
  assignDue p := by rw [hd.mem_iff, hst, hs.assignDue]
  deliveries := hd.nodup_iff.2 hs.deliveries

/-! ## The positions that leases name -/

theorem State.holds_congr {p : Position} (h : (t.member p).state = (s.member p).state) : t.Holds p ↔ s.Holds p := by
  unfold State.Holds
  rw [h]

theorem State.named_eq_false_iff {p : Position} : s.named p = false ↔ ∀ i l, s.lease? i = some l → l.names p = false := by
  unfold State.named allLeases
  rw [List.any_eq_false]
  refine ⟨fun h i l hl => ?_, fun h i _ => ?_⟩
  · simpa [hl] using h i (List.mem_finRange i)
  · cases hl : s.lease? i with
    | none => simp
    | some l => simp [h i l hl]

theorem Lease.names_eq_false_iff {l : Lease} {p : Position} : l.names p = false ↔ l.source ≠ p ∧ l.listensAt p = false := by
  simp [Lease.names]

theorem State.sourceCount_le {p : Position} (h : ∀ i l', t.lease? i = some l' → l'.source = p → ∃ l, s.lease? i = some l ∧ l.source = p) :
    t.sourceCount p ≤ s.sourceCount p := by
  refine List.countP_mono_left fun i _ hi => ?_
  obtain ⟨l', hl', hp⟩ := any_iff.1 hi
  obtain ⟨l, hl, hlp⟩ := h i l' hl' (by simpa using hp)
  exact any_iff.2 ⟨l, hl, by simpa using hlp⟩

theorem State.listenCount_le {p : Position}
    (h : ∀ i l', t.lease? i = some l' → l'.listensAt p = true → ∃ l, s.lease? i = some l ∧ l.listensAt p = true) :
    t.listenCount p ≤ s.listenCount p := by
  refine List.countP_mono_left fun i _ hi => ?_
  obtain ⟨l', hl', hp⟩ := any_iff.1 hi
  exact any_iff.2 (h i l' hl' hp)

theorem State.counts_of_unnamed {p : Position} (h : s.named p = false) : s.sourceCount p = 0 ∧ s.listenCount p = 0 := by
  rw [State.named_eq_false_iff] at h
  unfold State.sourceCount State.listenCount
  rw [List.countP_eq_zero, List.countP_eq_zero]
  refine ⟨fun i _ hi => ?_, fun i _ hi => ?_⟩ <;> obtain ⟨l, hl, hp⟩ := any_iff.1 hi <;>
    have hn := Lease.names_eq_false_iff.1 (h i l hl)
  · exact hn.1 (by simpa using hp)
  · exact absurd hp (by simp [hn.2])

/-- Leases that name no position more, of members that a lease names still held, and that hold their limits. -/
theorem State.NamesLawful.of_sub (hs : s.NamesLawful)
    (hl : ∀ i l', t.lease? i = some l' → ∃ l, s.lease? i = some l ∧ l'.source = l.source
      ∧ ∀ p, l'.listensAt p = true → l.listensAt p = true)
    (hheld : ∀ p, s.named p = true → s.Holds p → t.Holds p)
    (hlimit : ∀ p, p ≠ 0 → t.Holds p → s.named p = false
      ∨ (s.Holds p ∧ t.sourceLimit p = s.sourceLimit p ∧ t.listenLimit p = s.listenLimit p)) : t.NamesLawful := by
  have named {i : LeaseIndex} {l : Lease} {p : Position} (hi : s.lease? i = some l) (hn : l.names p = true) : s.named p = true := by
    by_contra hf
    exact absurd hn (by simp [State.named_eq_false_iff.1 (Bool.eq_false_iff.2 hf) i l hi])
  have hsource (p : Position) : t.sourceCount p ≤ s.sourceCount p := State.sourceCount_le fun i l' hi hp => by
    obtain ⟨l, hil, hsrc, -⟩ := hl i l' hi
    exact ⟨l, hil, hsrc.symm.trans hp⟩
  have hlisten (p : Position) : t.listenCount p ≤ s.listenCount p := State.listenCount_le fun i l' hi hp => by
    obtain ⟨l, hil, -, hsub⟩ := hl i l' hi
    exact ⟨l, hil, hsub p hp⟩
  refine ⟨fun i l' hi => ?_, fun i l' p hi hp => ?_, fun p hp hh => ?_, fun p hp hh => ?_⟩
  · obtain ⟨l, hil, hsrc, -⟩ := hl i l' hi
    exact hheld _ (named hil (by simp [Lease.names, hsrc])) (hsrc ▸ hs.source i l hil)
  · obtain ⟨l, hil, -, hsub⟩ := hl i l' hi
    exact hheld _ (named hil (by simp [Lease.names, hsub p hp])) (hs.listeners i l p hil (hsub p hp))
  · rcases hlimit p hp hh with hn | ⟨hh, hlim, -⟩
    · exact le_trans (hsource p) ((State.counts_of_unnamed hn).1 ▸ Nat.zero_le _)
    · exact hlim ▸ le_trans (hsource p) (hs.sources p hp hh)
  · rcases hlimit p hp hh with hn | ⟨hh, -, hlim⟩
    · exact le_trans (hlisten p) ((State.counts_of_unnamed hn).2 ▸ Nat.zero_le _)
    · exact hlim ▸ le_trans (hlisten p) (hs.listening p hp hh)

theorem State.limits_congr {p : Position} (h : (t.member p).identity = (s.member p).identity) :
    t.sourceLimit p = s.sourceLimit p ∧ t.listenLimit p = s.listenLimit p := by
  unfold State.sourceLimit State.listenLimit
  rw [h]
  exact ⟨rfl, rfl⟩

/-- The members as they were. -/
theorem State.NamesLawful.of_table (hs : s.NamesLawful) (hm : t.members = s.members)
    (hl : ∀ i l', t.lease? i = some l' → ∃ l, s.lease? i = some l ∧ l'.source = l.source
      ∧ ∀ p, l'.listensAt p = true → l.listensAt p = true) : t.NamesLawful := by
  have hmem (p : Position) : t.member p = s.member p := by unfold State.member; rw [hm]
  refine hs.of_sub hl (fun p _ h => (State.holds_congr (by rw [hmem])).2 h) fun p _ h => .inr ⟨?_, ?_⟩
  · exact (State.holds_congr (by rw [hmem])).1 h
  · exact State.limits_congr (by rw [hmem])

/-- The table as it was, and every member that is there with its limits. -/
theorem State.NamesLawful.of_members (hs : s.NamesLawful) (hl : t.leases = s.leases)
    (hheld : ∀ p, s.named p = true → s.Holds p → t.Holds p)
    (hlimit : ∀ p, p ≠ 0 → t.Holds p → s.named p = false ∨ (s.Holds p ∧ (t.member p).identity = (s.member p).identity)) :
    t.NamesLawful :=
  hs.of_sub (fun i l' hi => ⟨l', (State.lease?_congr hl i).symm.trans hi, rfl, fun _ => id⟩) hheld fun p hp hh =>
    (hlimit p hp hh).imp id fun h => ⟨h.1, State.limits_congr h.2⟩

/-! ## The layout -/

/-- A law of the layout depends on the claims and the active runs, and on the leases that the set names. -/
theorem State.LayoutLawful.of_claims (hs : s.LayoutLawful)
    (hl : ∀ i l', t.lease? i = some l' → ∃ l, s.lease? i = some l ∧ l'.direction = l.direction
      ∧ (∀ a ∈ l'.claims, ∃ b ∈ l.claims, a.Inside b)
      ∧ ∀ a, l'.active.run? l'.direction l'.source = some a → l.active.run? l.direction l.source = some a)
    (hn : ∀ i l', t.lease? i = some l' → l'.sealed ≠ none →
      ∃ set, t.publisher.stage.set? = some set ∧ set.namesIndex i = true) : t.LayoutLawful where
  claims i j l' m' hij hi hj hd a ha b hb := by
    obtain ⟨l, hil, hdl, hcl, -⟩ := hl i l' hi
    obtain ⟨m, hjm, hdm, hcm, -⟩ := hl j m' hj
    obtain ⟨a', ha', haa⟩ := hcl a ha
    obtain ⟨b', hb', hbb⟩ := hcm b hb
    exact (hs.claims i j l m hij hil hjm (by rw [← hdl, ← hdm, hd]) a' ha' b' hb').inside haa hbb
  active i j l' m' hij hi hj hd a b ha hb := by
    obtain ⟨l, hil, hdl, -, hal⟩ := hl i l' hi
    obtain ⟨m, hjm, hdm, -, ham⟩ := hl j m' hj
    exact hs.active i j l m hij hil hjm (by rw [← hdl, ← hdm, hd]) a b (hal a ha) (ham b hb)
  named := hn

theorem State.LayoutLawful.congr (hs : s.LayoutLawful) (hl : t.leases = s.leases)
    (hset : ∀ set, s.publisher.stage.set? = some set → ∃ set', t.publisher.stage.set? = some set'
      ∧ ∀ i, set.namesIndex i = true → set'.namesIndex i = true) : t.LayoutLawful :=
  hs.of_claims (fun i l' hi => ⟨l', (State.lease?_congr hl i).symm.trans hi, rfl, fun a ha => ⟨a, ha, .refl a⟩, fun _ => id⟩)
    fun i l' hi hsealed => by
      obtain ⟨set, h, hi'⟩ := hs.named i l' ((State.lease?_congr hl i).symm.trans hi) hsealed
      obtain ⟨set', h', hsub⟩ := hset set h
      exact ⟨set', h', hsub i hi'⟩

/-! ## The set in flight -/

/-- What is in flight stands: every sealed change on its lease, under its handle and mark, and no new one. -/
structure State.KeepsSealed (s t : State) : Prop where
  kept : ∀ i l, s.lease? i = some l → l.sealed ≠ none →
    ∃ l', t.leases[i] = ⟨s.leases[i].generation, some l'⟩ ∧ l'.sealed = l.sealed
      ∧ ∀ cause, l.mark = some ⟨cause, .sealed⟩ → l'.mark = l.mark
  old  : ∀ i l', t.lease? i = some l' → l'.sealed ≠ none → ∃ l, s.lease? i = some l ∧ l.sealed ≠ none

theorem State.lease?_entry {i : LeaseIndex} {l : Lease} (h : s.lease? i = some l) :
    s.leases[i] = ⟨s.leases[i].generation, some l⟩ := by
  unfold State.lease? at h
  generalize s.leases[i] = e at h ⊢
  cases e
  cases h
  rfl

theorem State.KeepsSealed.of_eq (h : t.leases = s.leases) : s.KeepsSealed t where
  kept i l hl _ := ⟨l, by rw [h]; exact State.lease?_entry hl, rfl, fun _ _ => rfl⟩
  old i l' hl' hs := ⟨l', (State.lease?_congr h i).symm.trans hl', hs⟩

theorem Delta.Agrees.sealed {d : Delta} {l : Lease} (h : d.Agrees l) : l.sealed ≠ none := by
  unfold Delta.Agrees at h
  split at h
  · simp [h]
  · simp [h.1]

/-- What stands on the leases of the deltas agrees with them. -/
theorem State.KeepsSealed.agrees (h : s.KeepsSealed t) {d : Delta}
    (hd : ∃ l, s.leases[d.handle.index] = ⟨d.handle.generation, some l⟩ ∧ d.Agrees l) :
    ∃ l, t.leases[d.handle.index] = ⟨d.handle.generation, some l⟩ ∧ d.Agrees l := by
  obtain ⟨l, hl, ha⟩ := hd
  obtain ⟨l', hl', hsealed, hmark⟩ := h.kept _ l (State.lease?_of_entry hl) ha.sealed
  refine ⟨l', by rw [hl', hl], ?_⟩
  unfold Delta.Agrees at ha ⊢
  split at ha
  · exact hsealed.trans ha
  · exact ⟨hsealed.trans ha.1, (hmark _ ha.2).trans ha.2⟩

/-- The publisher goes on: it stays as it is, or opens a batch window for a change staged in AUTO mode (R76). -/
def State.Notes (s t : State) : Prop :=
  t.publisher = s.publisher ∨ ∃ f, s.publisher.stage = .idle ∧ s.publisher.mode = .auto ∧ s.chain.state = .running
    ∧ t.publisher = { s.publisher with stage := .batching f }

theorem State.Notes.set? (h : s.Notes t) : t.publisher.stage.set? = s.publisher.stage.set? := by
  rcases h with h | ⟨f, hidle, -, -, h⟩ <;> rw [h]
  rw [hidle]
  rfl

/-- The law of the publisher, while what is in flight stands and no position leaves the members. -/
theorem State.PublisherLawful.of_keeps (hs : s.PublisherLawful) (hk : s.KeepsSealed t) (hj : ∀ p, s.joined p = true → t.joined p = true)
    (hrun : s.chain.state = .running → t.chain.state = .running) (hn : s.Notes t) : t.PublisherLawful := by
  have hset := hn.set?
  have agrees (set : ChangeSet) (hst : t.publisher.stage.set? = some set) (d : Delta) (hd : d ∈ set.deltas) :
      ∃ l, t.leases[d.handle.index] = ⟨d.handle.generation, some l⟩ ∧ d.Agrees l :=
    hk.agrees (hs.agrees set (hset ▸ hst) d hd)
  have openAre (set : ChangeSet) (hst : t.publisher.stage.set? = some set) (n : Notice) (hn : n ∈ set.notices) (ho : n.acked = false) :
      t.joined n.position = true := hj _ (hs.openAre set (hset ▸ hst) n hn ho)
  rcases hn with h | ⟨f, hidle, hauto, hr, h⟩
  · exact ⟨fun hne => hrun (hs.running (h ▸ hne)), fun f hf => by rw [h] at hf ⊢; exact hs.batching f hf,
      fun set hst => by rw [h] at hst ⊢; exact hs.number set hst, fun set hst => hs.filled set (hset ▸ hst),
      fun set hst => hs.ascending set (hset ▸ hst), agrees, openAre, fun set hst => hs.telling set (h ▸ hst),
      fun set f hst => hs.told set f (h ▸ hst)⟩
  · have hstage : t.publisher.stage = .batching f := by rw [h]
    have noSet {P : Prop} {set : ChangeSet} (hst : t.publisher.stage.set? = some set) : P := by
      rw [hstage] at hst
      cases hst
    exact ⟨fun _ => hrun hr, fun g _ => by rw [h]; exact hauto, fun set => noSet, fun set => noSet, fun set => noSet, agrees, openAre,
      fun set hst => noSet (congrArg PublisherStage.set? hst), fun set f hst => noSet (congrArg PublisherStage.set? hst)⟩

end

end Sys2Proof.Machine
end

section
/-! PROOFS. What the events on the lease entries keep: calm events, granted requests, and CREATE. -/

namespace Sys2Proof.Machine

section
variable {s t : State} {i : LeaseIndex} {ev : EntryEvent} {l l' : Lease}

/-! ## Events on entries -/

/-- Only the table, the attention set and the publisher's stage have changed, the stage by a change told of (R76). -/
structure State.OnTable (s t : State) : Prop where
  engine  : t.engine = s.engine
  members : t.members = s.members
  chain   : t.chain = s.chain
  notes   : s.Notes t

theorem State.OnTable.member (h : s.OnTable t) (p : Position) : t.member p = s.member p := by
  unfold State.member
  rw [h.members]

theorem State.OnTable.unanswered (h : s.OnTable t) : t.unanswered = s.unanswered := by
  unfold State.unanswered
  rw [h.chain]

theorem State.noteStaged_notes (s : State) : s.Notes s.noteStaged := by
  unfold State.noteStaged
  split
  · next h => exact .inr ⟨_, h.2.1, h.1, h.2.2, rfl⟩
  · exact .inl rfl

theorem State.notes_of_told {b : Bool} (hp : t.publisher = s.publisher) (hc : t.chain = s.chain) :
    s.Notes (if b = true then t.noteStaged else t) := by
  split
  · have h := t.noteStaged_notes
    unfold State.Notes at h ⊢
    rwa [hp, hc] at h
  · exact .inl hp

theorem State.onEntry_onTable (s : State) (i : LeaseIndex) (ev : EntryEvent) : s.OnTable (s.onEntry i ev) :=
  ⟨by simp, by simp, by simp, State.notes_of_told rfl rfl⟩

theorem State.onEveryEntry_onTable (s : State) (f : LeaseIndex → Entry → EntryEvent) : s.OnTable (s.onEveryEntry f) :=
  ⟨by simp, by simp, by simp, State.notes_of_told rfl rfl⟩

/-- An event on entries keeps the laws when it keeps those of the layout and of the names, and what is in flight. -/
theorem State.Works.onTable (hs : s.Works) (ht : s.OnTable t) (hlay : t.LayoutLawful) (hnames : t.NamesLawful)
    (hk : s.KeepsSealed t) : t.Works where
  layout := hlay
  members := hs.members.congr (fun p => by rw [ht.member]) (fun m h _ => ht.unanswered ▸ h) fun p h => ht.chain ▸ h
  queue := hs.queue.congr (fun p => by rw [ht.member]) (fun p => by rw [ht.member]) (by rw [ht.engine]) (by rw [ht.chain])
  names := hnames
  publisher := hs.publisher.of_keeps hk (fun p hp => (State.joined_congr (by rw [ht.member])).trans hp) (by rw [ht.chain]; exact id) ht.notes

/-- The leases that are there after a calm event have kept to what they were, and those in flight are all there. -/
structure State.Calms (s t : State) : Prop where
  held   : ∀ i l', t.lease? i = some l' → ∃ l, s.lease? i = some l ∧ l.Keeps l'
  flying : ∀ i l, s.lease? i = some l → l.sealed ≠ none → ∃ l', t.leases[i] = ⟨s.leases[i].generation, some l'⟩ ∧ l.Keeps l'

theorem State.Follows.calms (h : s.Follows Course.calm t) (hs : s.TableLawful) : s.Calms t where
  held i l' hl' := by
    obtain ⟨-, l, hl, -⟩ := (h.entries i).held hl'
    rcases (h.entries i).calm hl (hs.leases i l hl) with ⟨m, hm, hk, -⟩ | ⟨hn, -⟩
    · cases (congrArg Entry.lease hm).symm.trans hl'
      exact ⟨l, hl, hk⟩
    · cases hn.symm.trans hl'
  flying i l hl hsealed := by
    rcases (h.entries i).calm hl (hs.leases i l hl) with ⟨m, hm, hk, -⟩ | ⟨-, hn⟩
    · exact ⟨m, hm, hk⟩
    · exact absurd hn hsealed

theorem State.Calms.keepsSealed (h : s.Calms t) : s.KeepsSealed t where
  kept i l hl hsealed := by
    obtain ⟨l', hl', hk⟩ := h.flying i l hl hsealed
    exact ⟨l', hl', hk.sealed, hk.mark⟩
  old i l' hl' hsealed := by
    obtain ⟨l, hl, hk⟩ := h.held i l' hl'
    exact ⟨l, hl, hk.sealed ▸ hsealed⟩

/-- What is in flight is on leases of the set in flight still. -/
theorem State.LayoutLawful.named_of (hs : s.LayoutLawful) (hk : s.KeepsSealed t) (hn : s.Notes t) :
    ∀ i l', t.lease? i = some l' → l'.sealed ≠ none → ∃ set, t.publisher.stage.set? = some set ∧ set.namesIndex i = true := by
  intro i l' hl' hsealed
  obtain ⟨l, hl, hold⟩ := hk.old i l' hl' hsealed
  rw [hn.set?]
  exact hs.named i l hl hold

theorem State.Works.calms (hs : s.Works) (ht : s.OnTable t) (hc : s.Calms t) : t.Works := by
  refine hs.onTable ht ?_ ?_ hc.keepsSealed
  · refine hs.layout.of_claims (fun i l' hl' => ?_) (hs.layout.named_of hc.keepsSealed ht.notes)
    obtain ⟨l, hl, hk⟩ := hc.held i l' hl'
    obtain ⟨-, -, hsrc, hdir⟩ := hk.same
    exact ⟨l, hl, hdir, hk.claims, fun a ha => hk.active a (by rwa [hsrc, hdir] at ha)⟩
  · refine hs.names.of_table ht.members fun i l' hl' => ?_
    obtain ⟨l, hl, hk⟩ := hc.held i l' hl'
    exact ⟨l, hl, hk.same.2.2.1, hk.listens⟩

/-- A calm event on entries keeps the laws. -/
theorem State.Works.calm (hs : s.Works) (htab : s.TableLawful) (ht : s.OnTable t) (hf : s.Follows Course.calm t) : t.Works :=
  hs.calms ht (hf.calms htab)

/-! ## One entry takes a lease -/

/-- What is in flight stands when one entry takes a lease with the same of it. -/
theorem State.KeepsSealed.onEntry (hev : ev.entry = ⟨s.leases[i].generation, some l'⟩)
    (hl : (s.lease? i = none ∧ l'.sealed = none) ∨ ∃ l, s.lease? i = some l ∧ l'.sealed = l.sealed ∧ l'.mark = l.mark) :
    s.KeepsSealed (s.onEntry i ev) where
  kept j m hm hsealed := by
    by_cases hj : j = i
    · subst hj
      rcases hl with ⟨hn, -⟩ | ⟨l, hl, hs, hk⟩
      · cases hn.symm.trans hm
      · cases hl.symm.trans hm
        exact ⟨l', by rw [State.onEntry_entry_self, hev], hs, fun _ _ => hk⟩
    · exact ⟨m, by rw [State.onEntry_entry_of_ne s hj]; exact State.lease?_entry hm, rfl, fun _ _ => rfl⟩
  old j m hm hsealed := by
    rw [State.lease?_onEntry] at hm
    split at hm
    · next hj =>
      rw [hev] at hm
      cases hm
      rcases hl with ⟨-, hs⟩ | ⟨l, hl, hs, -⟩
      · exact absurd hs hsealed
      · exact ⟨l, hj ▸ hl, hs ▸ hsealed⟩
    · exact ⟨m, hm, hsealed⟩

/-- One entry takes a lease whose claims and active run are apart from those of the others in its direction. -/
theorem State.LayoutLawful.onEntry (hs : s.LayoutLawful) (hev : ev.entry.lease = some l')
    (hclaims : ∀ j m, j ≠ i → s.lease? j = some m → m.direction = l'.direction → ∀ a ∈ l'.claims, ∀ b ∈ m.claims, a.Apart b)
    (hactive : ∀ j m, j ≠ i → s.lease? j = some m → m.direction = l'.direction → ∀ a b,
      l'.active.run? l'.direction l'.source = some a → m.active.run? m.direction m.source = some b → a.Apart b)
    (hk : s.KeepsSealed (s.onEntry i ev)) : (s.onEntry i ev).LayoutLawful where
  claims j k m n hjk hm hn hd a ha b hb := by
    rw [State.lease?_onEntry] at hm hn
    split at hm <;> split at hn
    · next hj hk => exact absurd (hj.trans hk.symm) hjk
    · next hj hk =>
      cases hev.symm.trans hm
      exact hclaims k n hk hn hd.symm a ha b hb
    · next hj hk =>
      cases hev.symm.trans hn
      exact (hclaims j m hj hm hd b hb a ha).symm
    · exact hs.claims j k m n hjk hm hn hd a ha b hb
  active j k m n hjk hm hn hd a b ha hb := by
    rw [State.lease?_onEntry] at hm hn
    split at hm <;> split at hn
    · next hj hk => exact absurd (hj.trans hk.symm) hjk
    · next hj hk =>
      cases hev.symm.trans hm
      exact hactive k n hk hn hd.symm a b ha hb
    · next hj hk =>
      cases hev.symm.trans hn
      exact (hactive j m hj hm hd b a hb ha).symm
    · exact hs.active j k m n hjk hm hn hd a b ha hb
  named := hs.named_of hk (s.onEntry_onTable i ev).notes

/-- At most one more of a list without repetition satisfies a test that is changed for one element. -/
theorem countP_le_succ {α : Type} {p q : α → Bool} {x : α} {xs : List α} (hn : xs.Nodup)
    (h : ∀ y ∈ xs, y ≠ x → q y = true → p y = true) : xs.countP q ≤ xs.countP p + 1 := by
  induction xs with
  | nil => simp
  | cons y ys ih =>
    rw [List.nodup_cons] at hn
    by_cases hy : y = x
    · subst hy
      have hle : ys.countP q ≤ ys.countP p := List.countP_mono_left fun z hz hq =>
        h z (List.mem_cons_of_mem _ hz) (fun hzy => hn.1 (hzy ▸ hz)) hq
      simp only [List.countP_cons]
      split <;> split <;> omega
    · have hle := ih hn.2 fun z hz => h z (List.mem_cons_of_mem _ hz)
      have hy' := h y List.mem_cons_self hy
      simp only [List.countP_cons]
      split <;> split <;> first | omega | simp_all

theorem State.sourceCount_onEntry (hev : ev.entry.lease = some l') (p : Position) :
    (s.onEntry i ev).sourceCount p ≤ s.sourceCount p + 1
      ∧ ((l'.source = p → ∃ l, s.lease? i = some l ∧ l.source = p) → (s.onEntry i ev).sourceCount p ≤ s.sourceCount p) := by
  refine ⟨countP_le_succ (x := i) (List.nodup_finRange 128) fun j _ hj hq => ?_, fun h => State.sourceCount_le fun j m hm hp => ?_⟩
  · rwa [State.lease?_onEntry, if_neg hj] at hq
  · rw [State.lease?_onEntry] at hm
    split at hm
    · next hj =>
      cases hev.symm.trans hm
      exact hj ▸ h hp
    · exact ⟨m, hm, hp⟩

theorem State.listenCount_onEntry (hev : ev.entry.lease = some l') (p : Position) :
    (s.onEntry i ev).listenCount p ≤ s.listenCount p + 1
      ∧ ((l'.listensAt p = true → ∃ l, s.lease? i = some l ∧ l.listensAt p = true) →
        (s.onEntry i ev).listenCount p ≤ s.listenCount p) := by
  refine ⟨countP_le_succ (x := i) (List.nodup_finRange 128) fun j _ hj hq => ?_, fun h => State.listenCount_le fun j m hm hp => ?_⟩
  · rwa [State.lease?_onEntry, if_neg hj] at hq
  · rw [State.lease?_onEntry] at hm
    split at hm
    · next hj =>
      cases hev.symm.trans hm
      exact hj ▸ h hp
    · exact ⟨m, hm, hp⟩

/-- One entry takes a lease that names members which are there, within their limits (R51). -/
theorem State.NamesLawful.onEntry (hs : s.NamesLawful) (hev : ev.entry.lease = some l') (hsource : s.Holds l'.source)
    (hlisteners : ∀ p, l'.listensAt p = true → s.Holds p)
    (hsources : l'.source ≠ 0 → (∃ l, s.lease? i = some l ∧ l.source = l'.source)
      ∨ s.sourceCount l'.source + 1 ≤ s.sourceLimit l'.source)
    (hlistening : ∀ p, p ≠ 0 → l'.listensAt p = true → (∃ l, s.lease? i = some l ∧ l.listensAt p = true)
      ∨ s.listenCount p + 1 ≤ s.listenLimit p) : (s.onEntry i ev).NamesLawful := by
  have ht := s.onEntry_onTable i ev
  have holds (p : Position) : (s.onEntry i ev).Holds p ↔ s.Holds p := State.holds_congr (by rw [ht.member])
  have limits (p : Position) := State.limits_congr (s := s) (t := s.onEntry i ev) (p := p) (by rw [ht.member])
  refine ⟨fun j m hm => ?_, fun j m p hm hp => ?_, fun p hp hh => ?_, fun p hp hh => ?_⟩
  · rw [holds]
    rw [State.lease?_onEntry] at hm
    split at hm
    · cases hev.symm.trans hm
      exact hsource
    · exact hs.source j m hm
  · rw [holds]
    rw [State.lease?_onEntry] at hm
    split at hm
    · cases hev.symm.trans hm
      exact hlisteners p hp
    · exact hs.listeners j m p hm hp
  · rw [(limits p).1]
    obtain ⟨hsucc, hsame⟩ := State.sourceCount_onEntry (s := s) (i := i) hev p
    have hle := hs.sources p hp ((holds p).1 hh)
    by_cases heq : l'.source = p
    · subst heq
      rcases hsources hp with h | h
      · exact le_trans (hsame fun _ => h) hle
      · exact le_trans hsucc h
    · exact le_trans (hsame fun h => absurd h heq) hle
  · rw [(limits p).2]
    obtain ⟨hsucc, hsame⟩ := State.listenCount_onEntry (s := s) (i := i) hev p
    have hle := hs.listening p hp ((holds p).1 hh)
    by_cases heq : l'.listensAt p = true
    · rcases hlistening p hp heq with h | h
      · exact le_trans (hsame fun _ => h) hle
      · exact le_trans hsucc h
    · exact le_trans (hsame fun h => absurd h heq) hle

/-! ## Granted requests -/

theorem State.Holds.of_usable {p : Position} (h : s.usable p = true) : s.Holds p :=
  (State.usable_iff.1 h).imp id fun h => .inl (State.joined_iff.1 h)

/-- A configuration built for a lease names, apart from positions that the lease named, a usable one within its limit. -/
theorem State.Builds.listens {c₀ c : Configuration} (hb : s.Builds i l c₀ c) {p : Position} (hp : (l.adopt c).listensAt p = true) :
    l.listensAt p = true ∨ (s.usable p = true ∧ s.overListen p = false) := by
  obtain ⟨d, hd, hdp⟩ := Lease.listensAt_iff.1 hp
  rcases Lease.mem_adopt hd with rfl | hd
  · obtain ⟨-, -, hlis⟩ := State.placeFor_same hb.placed
    rw [hlis] at hdp
    cases hb with
    | shape => exact .inl (Lease.listensAt_iff.2 ⟨_, l.latest_mem, hdp⟩)
    | listen q _ _ hu _ _ hover =>
      simp only [Lease.extended, hasListener_withListener, Bool.or_eq_true, decide_eq_true_eq] at hdp
      rcases hdp with hdp | rfl
      · exact .inl (Lease.listensAt_iff.2 ⟨_, l.latest_mem, hdp⟩)
      · by_cases hla : l.listensAt p = true
        · exact .inl hla
        · exact .inr ⟨hu, hover (Bool.eq_false_iff.2 hla)⟩
  · exact .inl (Lease.listensAt_iff.2 ⟨d, hd, hdp⟩)

/-- The run of a configuration that the Placement Unit placed is apart from the claims of every other lease (R28, R32). -/
theorem State.placeFor_apart {d : Direction} {source : Position} {c₀ c : Configuration} {tried : Option Nat}
    (hp : s.placeFor i d source c₀ tried = some c) (hn : 1 ≤ c₀.count) {a : Run} (ha : c.run? d source = some a) :
    ∀ j m, j ≠ i → s.lease? j = some m → m.direction = d → ∀ b ∈ m.claims, a.Apart b := by
  obtain ⟨h0, o, ho, rfl⟩ := Configuration.run?_some.1 ha
  rcases s.placeFor_cases i d source c₀ tried hn with ⟨h, -⟩ | ⟨-, o', h, hf⟩ | ⟨-, h, -⟩
  · rw [(State.placeFor_same hp).2.2] at h0
    exact absurd h h0
  · cases hp.symm.trans h
    cases ho
    exact hf.1.2
  · cases hp.symm.trans h

theorem State.Builds.count {c₀ c : Configuration} (hb : s.Builds i l c₀ c) (hl : l.Lawful) : 1 ≤ c₀.count := by
  cases hb with
  | shape _ _ _ _ hn => exact hn.1
  | listen => exact hl.latest.count.1

theorem State.Works.builds (hs : s.Works) (htab : s.TableLawful) (hl : s.lease? i = some l) {c₀ c : Configuration}
    (hb : s.Builds i l c₀ c) : (s.onEntry i (adoptEvent s.leases[i] l c)).Works := by
  obtain ⟨-, -, hsrc, hdir⟩ := l.adopt_identity c
  have hev := adoptEvent_entry s.leases[i] l c
  have hev' : (adoptEvent s.leases[i] l c).entry.lease = some (l.adopt c) := by rw [hev]
  have hk : s.KeepsSealed (s.onEntry i (adoptEvent s.leases[i] l c)) := .onEntry hev (.inr ⟨l, hl, Lease.adopt_sealed⟩)
  refine hs.onTable (s.onEntry_onTable i _) ?_ ?_ hk
  · refine hs.layout.onEntry hev' (fun j m hj hm hd a ha b hmb => ?_) (fun j m hj hm hd a b ha hmb => ?_) hk
    · rw [hdir] at hd
      rcases Lease.claims_adopt ha with ha | ha
      · exact hs.layout.claims i j l m (Ne.symm hj) hl hm hd.symm a ha b hmb
      · exact State.placeFor_apart hb.placed (hb.count (htab.leases i l hl)) ha j m hj hm hd b hmb
    · rw [hsrc, hdir] at ha
      exact hs.layout.active i j l m (Ne.symm hj) hl hm (hdir ▸ hd.symm) a b (Lease.active_adopt ha) hmb
  · refine hs.names.onEntry hev' (hsrc ▸ hs.names.source i l hl) (fun p hp => ?_) (fun _ => .inl ⟨l, hl, hsrc.symm⟩) fun p h0 hp => ?_
    · rcases hb.listens hp with h | ⟨h, -⟩
      · exact hs.names.listeners i l p hl h
      · exact .of_usable h
    · rcases hb.listens hp with h | ⟨-, h⟩
      · exact .inl ⟨l, hl, h⟩
      · exact .inr (State.overListen_eq_false_iff.1 h h0)

/-- What a granted request makes of an entry keeps the laws. -/
theorem State.Works.grant (hs : s.Works) (htab : s.TableLawful) (hl : s.lease? i = some l) (hg : s.Grants i l ev) :
    (s.onEntry i ev).Works := by
  rcases hg.takes hl with ht | ⟨base, rfl, -⟩ | ⟨c₀, c, rfl, hb⟩
  · exact hs.calm htab (s.onEntry_onTable i ev) (.onEntry ht)
  · refine hs.calms (s.onEntry_onTable i _) ⟨fun j m hm => ?_, fun j m hm _ => ?_⟩
    · rw [State.lease?_onEntry] at hm
      split at hm
      · next hj =>
        cases hm
        exact ⟨l, hj ▸ hl, ⟨rfl, rfl, rfl, rfl⟩, fun a ha => ⟨a, ha, .refl a⟩, fun _ => id, rfl, fun _ _ => rfl, fun _ => id⟩
      · exact ⟨m, hm, .refl m⟩
    · by_cases hj : j = i
      · subst hj
        cases hl.symm.trans hm
        refine ⟨{ l with base }, by rw [State.onEntry_entry_self]; rfl, ?_⟩
        exact ⟨⟨rfl, rfl, rfl, rfl⟩, fun a ha => ⟨a, ha, .refl a⟩, fun _ => id, rfl, fun _ _ => rfl, fun _ => id⟩
      · exact ⟨m, by rw [State.onEntry_entry_of_ne s hj]; exact State.lease?_entry hm, .refl m⟩
  · exact hs.builds htab hl hb

/-! ## CREATE -/

theorem State.Holds.of_joined {p : Position} (h : p = 0 ∨ s.joined p = true) : s.Holds p :=
  h.imp id fun h => .inl (State.joined_iff.1 h)

/-- A lease that a CREATE makes names positions that the CREATE was allowed (R50, R51). -/
theorem State.Works.create (hs : s.Works) {owner : Position} {f : CreateFields} (hc : s.Creates owner f i ev) :
    (s.onEntry i ev).Works := by
  have takes {ev : EntryEvent} {staged : Option Configuration} (hfree : s.lease? i = none) (ha : s.CreateAllowed owner f)
      (hev : ev.entry = ⟨s.leases[i].generation, some { f.lease owner s.chain.counter with staged }⟩)
      (hst : ∀ c, staged = some c → c.listeners = f.listeners)
      (hfit : ∀ c a, staged = some c → c.run? f.direction f.source = some a →
        ∀ j m, j ≠ i → s.lease? j = some m → m.direction = f.direction → ∀ b ∈ m.claims, a.Apart b) :
      (s.onEntry i ev).Works := by
    have hev' : ev.entry.lease = some { f.lease owner s.chain.counter with staged } := by rw [hev]
    have hk : s.KeepsSealed (s.onEntry i ev) := .onEntry hev (.inl ⟨hfree, rfl⟩)
    have unplaced {d : Direction} {p : Position} {a : Run} : (f.lease owner s.chain.counter).active.run? d p ≠ some a := by
      simp [CreateFields.lease, Configuration.run?]
    have listens (p : Position) (hp : ({ f.lease owner s.chain.counter with staged } : Lease).listensAt p = true) :
        hasListener f.listeners p = true := by
      obtain ⟨c, hc, hcp⟩ := Lease.listensAt_iff.1 hp
      rcases Lease.mem_configurations.1 hc with rfl | hc | hc
      · simp [CreateFields.lease, hasListener] at hcp
      · cases hc
      · exact hst c hc ▸ hcp
    refine hs.onTable (s.onEntry_onTable i ev) ?_ ?_ hk
    · refine hs.layout.onEntry hev' (fun j m hj hm hd a ha' b hmb => ?_) (fun j m hj hm hd a b ha' => absurd ha' unplaced) hk
      obtain ⟨c, hc, hr⟩ := Lease.mem_claims.1 ha'
      rcases Lease.mem_claiming.1 hc with ⟨-, rfl⟩ | hc | hc
      · exact absurd hr unplaced
      · cases hc
      · exact hfit c a hc hr j m hj hm hd b hmb
    · refine hs.names.onEntry hev' (.of_joined ha.source) (fun p hp => .of_joined (ha.usable p (listens p hp)))
        (fun h => .inr (ha.sources h)) fun p h0 hp => .inr (ha.listening p (listens p hp) h0)
  cases hc with
  | bare hfree ha => exact takes (staged := none) hfree.1 ha rfl (by simp) (by simp)
  | listened hfree ha _ _ o ho =>
    refine takes (staged := some { f.config with placement := some o }) hfree.1 ha rfl ?_ ?_
    · rintro c ⟨⟩
      rfl
    · rintro c a ⟨⟩ hr
      obtain ⟨-, o', ho', rfl⟩ := Configuration.run?_some.1 hr
      cases ho'
      exact ho.2

end

end Sys2Proof.Machine
end

section
/-! PROOFS. Sealing and repack: the set that they begin, and that both keep the laws (R19, R40, R82 to R84, R89). -/

namespace Sys2Proof.Machine

section
variable {s t : State} {i : LeaseIndex} {l : Lease}

/-! ## A set begins -/

/-- The set that the sealed deltas make, every notice OPEN (R82 to R86). -/
def State.newSet (s : State) (deltas : List Delta) : ChangeSet :=
  { number := s.publisher.epoch + 1, deltas, notices := s.noticesFor deltas
    rotation := memberPositions.find? (openAt (s.noticesFor deltas)) }

theorem State.beginSet_stage (s : State) (deltas : List Delta) : (s.beginSet deltas).publisher.stage
    = if allSettled (s.noticesFor deltas) then .switching (s.newSet deltas) s.switchFrameNow else .notifying (s.newSet deltas) := rfl

theorem State.beginSet_set? (s : State) (deltas : List Delta) :
    (s.beginSet deltas).publisher.stage.set? = some (s.newSet deltas) := by
  rw [State.beginSet_stage]
  split <;> rfl

theorem allSettled_iff {ns : List Notice} : allSettled ns = true ↔ ∀ n ∈ ns, n.acked = true := by simp [allSettled]

theorem not_allSettled_iff {ns : List Notice} : allSettled ns ≠ true ↔ ∃ n ∈ ns, n.acked = false := by simp [allSettled]

theorem State.mem_noticesFor {deltas : List Delta} {n : Notice} : n ∈ s.noticesFor deltas ↔
    n.acked = false ∧ n.position ≠ 0 ∧ ∃ d, deltas[n.delta]? = some d ∧ s.concerns d n.position = true := by
  unfold State.noticesFor
  simp only [List.mem_flatMap, List.mem_map, List.mem_filter, mem_memberPositions, Prod.exists, List.mem_zipIdx_iff_getElem?]
  constructor
  · rintro ⟨d, k, hd, p, ⟨hp, hc⟩, rfl⟩
    exact ⟨rfl, hp, d, hd, hc⟩
  · rintro ⟨ha, hp, d, hd, hc⟩
    exact ⟨d, n.delta, hd, n.position, ⟨hp, hc⟩, by cases n; cases ha; rfl⟩

theorem State.concerns_joined {d : Delta} {p : Position} (h : s.concerns d p = true) : s.joined p = true := by
  unfold State.concerns at h
  rw [Bool.and_eq_true] at h
  exact h.1

/-- A set that begins on a running chain agrees with the leases when its deltas do. -/
theorem State.PublisherLawful.beginSet {deltas : List Delta} (hrun : s.chain.state = .running) (hne : deltas ≠ [])
    (hasc : deltas.Pairwise fun a b => a.handle.index < b.handle.index)
    (hagrees : ∀ d ∈ deltas, ∃ l, s.leases[d.handle.index] = ⟨d.handle.generation, some l⟩ ∧ d.Agrees l) :
    (s.beginSet deltas).PublisherLawful := by
  have the {set : ChangeSet} (h : (s.beginSet deltas).publisher.stage.set? = some set) : set = s.newSet deltas :=
    Option.some.inj (h.symm.trans (s.beginSet_set? deltas))
  have hstage := s.beginSet_stage deltas
  refine ⟨fun _ => hrun, fun f hf => ?_, fun set h => by rw [the h]; rfl, fun set h => by rw [the h]; exact hne,
    fun set h => by rw [the h]; exact hasc, fun set h => by rw [the h]; exact hagrees, fun set h n hn _ => ?_, fun set h => ?_,
    fun set f h => ?_⟩
  · rw [hstage] at hf
    split at hf <;> cases hf
  · rw [the h] at hn
    obtain ⟨-, -, d, -, hd⟩ := State.mem_noticesFor.1 hn
    exact State.concerns_joined hd
  · rw [hstage] at h
    split at h <;> cases h
    next hn => exact not_allSettled_iff.1 hn
  · rw [hstage] at h
    split at h <;> cases h
    next hn => exact allSettled_iff.1 hn

/-- Deltas taken from the entries in ascending order are in ascending order. -/
theorem deltas_ascending {f : LeaseIndex → Option Delta} (hf : ∀ i d, f i = some d → d.handle.index = i) :
    (allLeases.filterMap f).Pairwise fun a b => a.handle.index < b.handle.index := by
  unfold allLeases
  rw [List.pairwise_filterMap]
  exact (List.pairwise_lt_finRange 128).imp fun {i j} hij a ha b hb => by rwa [hf i a ha, hf j b hb]

theorem mem_deltas {f : LeaseIndex → Option Delta} {d : Delta} : d ∈ allLeases.filterMap f ↔ ∃ i, f i = some d := by
  simp [allLeases]

/-! ## A sealing -/

/-- The lease after a sealing (R19). -/
def Lease.afterSealing (l : Lease) : Lease := (l.sealing.map Prod.fst).getD l

theorem State.sealStaged_entry (s : State) (i : LeaseIndex) :
    s.sealStaged.leases[i] = ⟨s.leases[i].generation, (s.lease? i).map Lease.afterSealing⟩ := by
  unfold State.sealStaged
  rw [State.beginSet_leases, State.onEveryEntry_entry]
  unfold sealEntry State.lease? Lease.afterSealing
  generalize s.leases[i] = e
  obtain ⟨g, _ | l⟩ := e
  · rfl
  · dsimp only
    cases h : l.sealing <;> simp [h, Entry.put, EntryEvent.unchanged]

theorem State.sealStaged_lease (s : State) (i : LeaseIndex) : s.sealStaged.lease? i = (s.lease? i).map Lease.afterSealing := by
  rw [State.lease?, State.sealStaged_entry]

/-- What a sealing makes of a lease, and the kind of its delta, case by case (R19, R83). -/
theorem Lease.sealing_some {q : Lease × DeltaKind} : l.sealing = some q ↔
    (∃ cause, l.mark = some ⟨cause, .staged⟩
      ∧ q = ({ l with sealed := some .retirement, staged := none, mark := some ⟨cause, .sealed⟩ }, .retire cause))
    ∨ ∃ c, l.mark = none ∧ l.staged = some c ∧ q = ({ l with sealed := some (.config c), staged := none }, .config c) := by
  unfold Lease.sealing
  rcases hm : l.mark with _ | ⟨cause, _ | _⟩
  · cases hc : l.staged <;> simp [eq_comm]
  · simp [eq_comm]
  · simp

theorem Lease.sealing_eq_none : l.sealing = none ↔ l.hasStaged = false ∨ l.state = .going := by
  unfold Lease.sealing Lease.hasStaged Lease.state
  rcases l.mark with _ | ⟨cause, _ | _⟩
  · cases l.staged <;> simp
  · simp
  · simp

theorem State.mem_stagedDeltas {d : Delta} : d ∈ s.stagedDeltas ↔ ∃ l, s.leases[d.handle.index] = ⟨d.handle.generation, some l⟩
    ∧ ∃ l', l.sealing = some (l', d.kind) := by
  unfold State.stagedDeltas
  rw [mem_deltas]
  simp only [Option.bind_eq_some_iff, Option.map_eq_some_iff]
  constructor
  · rintro ⟨i, l, hl, q, hq, rfl⟩
    exact ⟨l, State.lease?_entry hl, q.1, hq⟩
  · rintro ⟨l, hl, l', hq⟩
    refine ⟨d.handle.index, l, State.lease?_of_entry hl, (l', d.kind), hq, ?_⟩
    unfold State.handleOf
    rw [hl]

theorem State.stagedDeltas_ascending (s : State) : s.stagedDeltas.Pairwise fun a b => a.handle.index < b.handle.index :=
  deltas_ascending fun i d hd => by
    simp only [Option.bind_eq_some_iff, Option.map_eq_some_iff] at hd
    obtain ⟨l, -, q, -, rfl⟩ := hd
    rfl

theorem Lease.sealing_agrees {q : Lease × DeltaKind} (h : l.sealing = some q) (hd : Handle) : (⟨hd, q.2⟩ : Delta).Agrees q.1 := by
  rcases Lease.sealing_some.1 h with ⟨cause, -, rfl⟩ | ⟨c, -, -, rfl⟩
  · exact ⟨rfl, rfl⟩
  · exact Eq.refl (some (SealedChange.config c))

/-- A sealing makes no lease claim a bit more or name a position more (R19, R28). -/
theorem Lease.afterSealing_sub (l : Lease) : l.SameAs l.afterSealing ∧ (∀ a ∈ l.afterSealing.claims, a ∈ l.claims)
    ∧ l.afterSealing.active = l.active ∧ ∀ p, l.afterSealing.listensAt p = true → l.listensAt p = true := by
  unfold Lease.afterSealing
  cases hq : l.sealing with
  | none => exact ⟨⟨rfl, rfl, rfl, rfl⟩, fun _ => id, rfl, fun _ => id⟩
  | some q =>
    have listens {l' : Lease} (h : l.Changes l') (p : Position) (hp : l'.listensAt p = true) : l.listensAt p = true := by
      obtain ⟨c, hc, hcp⟩ := Lease.listensAt_iff.1 hp
      obtain ⟨d, hd, hw⟩ := h.within c hc
      exact Lease.listensAt_iff.2 ⟨d, hd, hw.sub p hcp⟩
    rcases Lease.sealing_some.1 hq with ⟨cause, hm, rfl⟩ | ⟨c, hm, hc, rfl⟩
    · refine ⟨⟨rfl, rfl, rfl, rfl⟩, fun a ha => ?_, rfl, listens (.retireSealed cause hm)⟩
      obtain ⟨c, hc, -⟩ := Lease.mem_claims.1 ha
      rcases Lease.mem_claiming.1 hc with ⟨h, -⟩ | h | h <;> cases h
    · refine ⟨⟨rfl, rfl, rfl, rfl⟩, fun a ha => ?_, rfl, listens (.configSealed c hm hc)⟩
      obtain ⟨d, hd, hr⟩ := Lease.mem_claims.1 ha
      rcases Lease.mem_claiming.1 hd with ⟨h, -⟩ | h | h <;> cases h
      exact Lease.mem_claims.2 ⟨_, Lease.mem_claiming.2 (.inr (.inr hc)), hr⟩

theorem State.sealStaged_sub {l' : Lease} (h : s.sealStaged.lease? i = some l') : ∃ l, s.lease? i = some l ∧ l' = l.afterSealing := by
  rw [State.sealStaged_lease, Option.map_eq_some_iff] at h
  obtain ⟨l, hl, rfl⟩ := h
  exact ⟨l, hl, rfl⟩

theorem State.onEveryEntry_epoch (s : State) (f : LeaseIndex → Entry → EntryEvent) :
    (s.onEveryEntry f).publisher.epoch = s.publisher.epoch := by
  rcases (s.onEveryEntry_onTable f).notes with h | ⟨_, -, -, -, h⟩ <;> rw [h]

/-- A lease that a sealing finds nothing staged on has nothing in flight after it either, if it had nothing before. -/
theorem State.mem_stagedDeltas_of_sealed (hl : s.lease? i = some l) (hs : l.sealed = none) (h : l.afterSealing.sealed ≠ none) :
    ∃ d ∈ s.stagedDeltas, d.handle.index = i := by
  unfold Lease.afterSealing at h
  cases hq : l.sealing with
  | none => exact absurd hs (by simpa [hq] using h)
  | some q => exact ⟨⟨s.handleOf i, q.2⟩, State.mem_stagedDeltas.2 ⟨l, State.lease?_entry hl, q.1, hq⟩, rfl⟩

theorem State.namesIndex_iff {set : ChangeSet} : set.namesIndex i = true ↔ ∃ d ∈ set.deltas, d.handle.index = i := by
  simp [ChangeSet.namesIndex]

/-- Nothing is in flight while there is no set (R19). -/
theorem State.LayoutLawful.nothing_sealed (hs : s.LayoutLawful) (hset : s.publisher.stage.set? = none) (hl : s.lease? i = some l) :
    l.sealed = none := by
  by_contra h
  obtain ⟨set, hst, -⟩ := hs.named i l hl h
  cases hset.symm.trans hst

/-- The laws after a set has begun on entries that were changed for it. -/
theorem State.Works.begins (hs : s.Works) {f : LeaseIndex → Entry → EntryEvent} {deltas : List Delta}
    (hnames : ∀ i l', (s.onEveryEntry f).lease? i = some l' → ∃ l, s.lease? i = some l ∧ l'.source = l.source
      ∧ ∀ p, l'.listensAt p = true → l.listensAt p = true)
    (hlayout : ((s.onEveryEntry f).beginSet deltas).LayoutLawful) (hpublisher : ((s.onEveryEntry f).beginSet deltas).PublisherLawful) :
    ((s.onEveryEntry f).beginSet deltas).Works where
  layout := hlayout
  members := hs.members.congr (fun p => by simp) (fun m h _ => by simpa [State.unanswered] using h) fun p h => by simpa using h
  queue := hs.queue.congr (fun p => by simp) (fun p => by simp) (by simp) (by simp)
  names := hs.names.of_table (by simp) fun i l' hl' => hnames i l' (by simpa using hl')
  publisher := hpublisher

theorem State.anyStaged_sealing : s.anyStaged = true ↔ ∃ i l, s.lease? i = some l ∧ l.hasStaged = true := by
  unfold State.anyStaged allLeases
  rw [List.any_eq_true]
  simp only [List.mem_finRange, true_and, any_iff]

/-- A sealing keeps the laws (R19, R82, R84, R89). -/
theorem State.Works.sealStaged (hs : s.Works) (htab : s.TableLawful) (hrun : s.chain.state = .running)
    (hset : s.publisher.stage.set? = none) (hany : s.anyStaged = true) : s.sealStaged.Works := by
  have sub {i : LeaseIndex} {l' : Lease} (h : (s.onEveryEntry fun _ e => sealEntry e).lease? i = some l') :
      ∃ l, s.lease? i = some l ∧ l' = l.afterSealing := State.sealStaged_sub (s := s) (by
    rwa [State.sealStaged, State.beginSet_lease])
  refine hs.begins (fun i l' hl' => ?_) (hs.layout.of_claims (fun i l' hl' => ?_) fun i l' hl' hsealed => ?_) (.beginSet ?_ ?_ ?_ ?_)
  · obtain ⟨l, hl, rfl⟩ := sub hl'
    obtain ⟨⟨-, -, hsrc, -⟩, -, -, hlis⟩ := l.afterSealing_sub
    exact ⟨l, hl, hsrc, hlis⟩
  · obtain ⟨l, hl, rfl⟩ := State.sealStaged_sub hl'
    obtain ⟨⟨-, -, hsrc, hdir⟩, hcl, hact, -⟩ := l.afterSealing_sub
    exact ⟨l, hl, hdir, fun a ha => ⟨a, hcl a ha, .refl a⟩, fun a ha => by rwa [hsrc, hdir, hact] at ha⟩
  · obtain ⟨l, hl, rfl⟩ := State.sealStaged_sub hl'
    obtain ⟨d, hd, hi⟩ := State.mem_stagedDeltas_of_sealed hl (hs.layout.nothing_sealed hset hl) hsealed
    exact ⟨_, State.beginSet_set? _ _, State.namesIndex_iff.2 ⟨d, hd, hi⟩⟩
  · simpa using hrun
  · obtain ⟨i, l, hl, hst⟩ := State.anyStaged_sealing.1 hany
    cases hq : l.sealing with
    | none =>
      rcases Lease.sealing_eq_none.1 hq with h | h
      · cases hst.symm.trans h
      · have hstaged := (htab.leases i l hl).going h
        simp [Lease.hasStaged, hstaged, h] at hst
    | some q => exact List.ne_nil_of_mem (State.mem_stagedDeltas (d := ⟨s.handleOf i, q.2⟩).2 ⟨l, State.lease?_entry hl, q.1, hq⟩)
  · exact s.stagedDeltas_ascending
  · intro d hd
    obtain ⟨l, hl, l', hq⟩ := State.mem_stagedDeltas.1 hd
    refine ⟨l', ?_, Lease.sealing_agrees hq d.handle⟩
    have hentry := s.sealStaged_entry d.handle.index
    rw [State.lease?_of_entry hl, Option.map_some, Lease.afterSealing, hq, hl] at hentry
    exact hentry

/-! ## A repack -/

/-- The lease after a repack that gives it an offset, if it gives one (R40). -/
def Lease.repacked (l : Lease) : Option Nat → Lease
  | some o => { l with sealed := some (.config (l.movedConfig o)) }
  | none => l

theorem State.sealRepack_entry (s : State) (plan : List (PlanItem × Nat)) (i : LeaseIndex) :
    (s.sealRepack plan).leases[i] = ⟨s.leases[i].generation, (s.lease? i).map fun l => l.repacked (movedTo plan i)⟩ := by
  unfold State.sealRepack
  rw [State.beginSet_leases, State.onEveryEntry_entry]
  unfold repackEntry State.lease?
  generalize s.leases[i] = e
  obtain ⟨g, _ | l⟩ := e
  · rfl
  · cases movedTo plan i <;> rfl

theorem State.sealRepack_sub {plan : List (PlanItem × Nat)} {l' : Lease} (h : (s.sealRepack plan).lease? i = some l') :
    ∃ l, s.lease? i = some l ∧ l' = l.repacked (movedTo plan i) := by
  rw [State.lease?, State.sealRepack_entry, Option.map_eq_some_iff] at h
  obtain ⟨l, hl, rfl⟩ := h
  exact ⟨l, hl, rfl⟩

theorem State.mem_repackDeltas {plan : List (PlanItem × Nat)} {d : Delta} : d ∈ s.repackDeltas plan ↔
    ∃ o l, movedTo plan d.handle.index = some o ∧ s.leases[d.handle.index] = ⟨d.handle.generation, some l⟩
      ∧ d.kind = .config (l.movedConfig o) := by
  unfold State.repackDeltas
  rw [mem_deltas]
  constructor
  · rintro ⟨i, hi⟩
    split at hi
    · next l o hl ho =>
      cases hi
      exact ⟨o, l, ho, State.lease?_entry hl, rfl⟩
    · cases hi
  · rintro ⟨o, l, ho, hl, hk⟩
    refine ⟨d.handle.index, ?_⟩
    simp only [State.lease?_of_entry hl, ho, State.handleOf, hl, ← hk]

theorem State.repackDeltas_ascending (s : State) (plan : List (PlanItem × Nat)) :
    (s.repackDeltas plan).Pairwise fun a b => a.handle.index < b.handle.index :=
  deltas_ascending fun i d hd => by
    split at hd <;> cases hd
    rfl

/-- What a lease claims after a repack is the run that the plan gives it (R39, R40). -/
theorem State.repacked_claims {plan : List (PlanItem × Nat)} (hp : s.repackPlan = some plan) (hl : s.lease? i = some l)
    (hsealed : l.sealed = none) (hstaged : l.staged = none) {r : Run} (hr : r ∈ (l.repacked (movedTo plan i)).claims) :
    ∃ a o, (a, o) ∈ plan ∧ a.index = i ∧ a.direction = l.direction ∧ r = a.config.runAt a.direction a.source o := by
  have planned {o : Nat} (hplaced : l.active.placement ≠ none) : ∃ a o, (a, o) ∈ plan ∧ a.index = i ∧ a.direction = l.direction
      ∧ a.source = l.source ∧ a.config = l.active := by
    obtain ⟨o, ho⟩ := (State.repackPlan_mem hp (a := ⟨i, l.direction, l.source, l.active⟩)).2 ⟨l, hl, hplaced, rfl, rfl, rfl⟩
    exact ⟨_, o, ho, rfl, rfl, rfl, rfl⟩
  obtain ⟨c, hc, hrun⟩ := Lease.mem_claims.1 hr
  have hc := Lease.mem_claiming.1 hc
  cases hmoved : movedTo plan i with
  | none =>
    simp only [hmoved, Lease.repacked, hsealed, hstaged] at hc hrun
    rcases hc with ⟨-, rfl⟩ | hc | hc
    · obtain ⟨-, o, ho, rfl⟩ := Configuration.run?_some.1 hrun
      obtain ⟨a, o', ha, hi, hd, hs, hca⟩ := planned (o := o) (by simp [ho])
      refine ⟨a, o', ha, hi, hd, ?_⟩
      have hstay : a.config.placement = some o' := by
        by_contra hne
        exact absurd ((State.movedTo_iff hp).2 ⟨a, ha, hi, hne⟩) (by simp [hmoved])
      rw [hca, ho] at hstay
      rw [hd, hs, hca, Option.some.inj hstay]
    · cases hc
    · cases hc
  | some o =>
    obtain ⟨a, ha, hi, -⟩ := (State.movedTo_iff hp).1 hmoved
    obtain ⟨l', hl', -, hd, hs, hca⟩ := (State.repackPlan_mem hp).1 ⟨o, ha⟩
    rw [hi] at hl'
    cases hl.symm.trans hl'
    simp only [hmoved, Lease.repacked, hstaged] at hc hrun
    rcases hc with ⟨hc, -⟩ | hc | hc <;> cases hc
    obtain ⟨-, o', ho', rfl⟩ := Configuration.run?_some.1 hrun
    cases ho'
    exact ⟨a, o, ha, hi, hd, by rw [hd, hs, hca]; rfl⟩

/-- The runs of a plan are apart (R39). -/
theorem State.repackPlan_apart {plan : List (PlanItem × Nat)} (hp : s.repackPlan = some plan) {a b : PlanItem} {o q : Nat}
    (ha : (a, o) ∈ plan) (hb : (b, q) ∈ plan) (hi : a.index ≠ b.index) (hd : a.direction = b.direction) :
    (a.config.runAt a.direction a.source o).Apart (b.config.runAt b.direction b.source q) := by
  by_cases h : b.before a = true
  · exact (State.repackPlan_lowestClear hp ha).1.2 b q hb hd.symm h
  · have h' := PlanItem.before_total (Ne.symm hi) (Bool.eq_false_iff.2 h)
    exact ((State.repackPlan_lowestClear hp hb).1.2 a o ha hd h').symm

theorem Lease.repacked_same (l : Lease) (o : Option Nat) : l.SameAs (l.repacked o) ∧ (l.repacked o).active = l.active
    ∧ ∀ p, (l.repacked o).listensAt p = true → l.listensAt p = true := by
  cases o with
  | none => exact ⟨⟨rfl, rfl, rfl, rfl⟩, rfl, fun _ => id⟩
  | some o =>
    refine ⟨⟨rfl, rfl, rfl, rfl⟩, rfl, fun p hp => ?_⟩
    obtain ⟨c, hc, hcp⟩ := Lease.listensAt_iff.1 hp
    rcases Lease.mem_configurations.1 hc with h | h | h
    · exact Lease.listensAt_iff.2 ⟨c, Lease.mem_configurations.2 (.inl h), hcp⟩
    · cases h
      exact Lease.listensAt_iff.2 ⟨l.active, Lease.mem_configurations.2 (.inl rfl), hcp⟩
    · exact Lease.listensAt_iff.2 ⟨c, Lease.mem_configurations.2 (.inr (.inr h)), hcp⟩

/-- A repack keeps the laws (R38, R39, R40). -/
theorem State.Works.sealRepack (hs : s.Works) {plan : List (PlanItem × Nat)} (hrun : s.chain.state = .running)
    (hidle : s.publisher.stage = .idle) (hfree : s.repackBlocked = false) (hp : s.repackPlan = some plan)
    (hmoved : movedCount plan ≠ 0) : (s.sealRepack plan).Works := by
  have sub {i : LeaseIndex} {l' : Lease} (h : (s.onEveryEntry (repackEntry plan)).lease? i = some l') :
      ∃ l, s.lease? i = some l ∧ l' = l.repacked (movedTo plan i) := State.sealRepack_sub (s := s) (by
    rwa [State.sealRepack, State.beginSet_lease])
  have hset : s.publisher.stage.set? = none := by rw [hidle]; rfl
  have bare {i : LeaseIndex} {l : Lease} (hl : s.lease? i = some l) : l.sealed = none ∧ l.staged = none :=
    ⟨hs.layout.nothing_sealed hset hl, (State.repackBlocked_eq_false_iff.1 hfree i l hl).1⟩
  refine hs.begins (fun i l' hl' => ?_) ⟨fun i j l' m' hij hi hj hd a ha b hb => ?_, fun i j l' m' hij hi hj hd a b ha hb => ?_,
    fun i l' hl' hsealed => ?_⟩ (.beginSet ?_ ?_ ?_ ?_)
  · obtain ⟨l, hl, rfl⟩ := sub hl'
    obtain ⟨⟨-, -, hsrc, -⟩, -, hlis⟩ := l.repacked_same (movedTo plan i)
    exact ⟨l, hl, hsrc, hlis⟩
  · obtain ⟨l, hl, rfl⟩ := State.sealRepack_sub hi
    obtain ⟨m, hm, rfl⟩ := State.sealRepack_sub hj
    obtain ⟨x, o, hx, hxi, hxd, rfl⟩ := State.repacked_claims hp hl (bare hl).1 (bare hl).2 ha
    obtain ⟨y, q, hy, hyj, hyd, rfl⟩ := State.repacked_claims hp hm (bare hm).1 (bare hm).2 hb
    rw [(l.repacked_same _).1.2.2.2, (m.repacked_same _).1.2.2.2] at hd
    exact State.repackPlan_apart hp hx hy (by rw [hxi, hyj]; exact hij) (by rw [hxd, hyd, hd])
  · obtain ⟨l, hl, rfl⟩ := State.sealRepack_sub hi
    obtain ⟨m, hm, rfl⟩ := State.sealRepack_sub hj
    obtain ⟨⟨-, -, hls, hld⟩, hla, -⟩ := l.repacked_same (movedTo plan i)
    obtain ⟨⟨-, -, hms, hmd⟩, hma, -⟩ := m.repacked_same (movedTo plan j)
    rw [hld, hmd] at hd
    rw [hla, hls, hld] at ha
    rw [hma, hms, hmd] at hb
    exact hs.layout.active i j l m hij hl hm hd a b ha hb
  · obtain ⟨l, hl, rfl⟩ := State.sealRepack_sub hl'
    refine ⟨_, State.beginSet_set? _ _, State.namesIndex_iff.2 ?_⟩
    cases ho : movedTo plan i with
    | none => exact absurd (bare hl).1 (by simpa [ho, Lease.repacked] using hsealed)
    | some o =>
      exact ⟨⟨s.handleOf i, .config (l.movedConfig o)⟩, State.mem_repackDeltas.2 ⟨o, l, ho, State.lease?_entry hl, rfl⟩, rfl⟩
  · simpa using hrun
  · have hpos : 0 < allLeases.countP fun i => (movedTo plan i).isSome := Nat.pos_of_ne_zero hmoved
    obtain ⟨i, -, hi⟩ := List.countP_pos_iff.1 hpos
    obtain ⟨o, ho⟩ := Option.isSome_iff_exists.1 hi
    obtain ⟨l, hl, -⟩ := State.movedTo_lease hp ho
    exact List.ne_nil_of_mem (State.mem_repackDeltas (d := ⟨s.handleOf i, .config (l.movedConfig o)⟩).2
      ⟨o, l, ho, State.lease?_entry hl, rfl⟩)
  · exact s.repackDeltas_ascending plan
  · intro d hd
    obtain ⟨o, l, ho, hl, hk⟩ := State.mem_repackDeltas.1 hd
    refine ⟨l.repacked (some o), ?_, ?_⟩
    · have hentry := s.sealRepack_entry plan d.handle.index
      rw [State.lease?_of_entry hl, Option.map_some, ho, hl] at hentry
      exact hentry
    · unfold Delta.Agrees
      rw [hk]
      rfl

end

end Sys2Proof.Machine
end

section
/-! PROOFS. What the events on members and on the request queue keep (R43, R114, R120 to R132, R143). -/

namespace Sys2Proof.Machine

section
variable {s t : State} {p : Position}

/-! ## One position changes its state -/

/-- What may stand directly below a position that is JOINED, ADMITTING or LOST (R114). -/
theorem MemberState.MayPrecede.below {a b : MemberState} (h : a.MayPrecede b) (hb : b ≠ .vacant) :
    a = .joined ∨ (a = .lost ∧ b = .lost) := by
  cases a with
  | joined => exact .inl rfl
  | admitting | vacant => exact absurd h hb
  | lost => exact .inr ⟨rfl, h.resolve_right hb⟩

theorem succ_position {q p : Position} (h : q + 1 = p) : q = p - 1 := by revert q p; decide

theorem position_pred_succ {p : Position} (h : p ≠ 0) : p - 1 + 1 = p := by revert p; decide

theorem position_succ_ne (p : Position) : p + 1 ≠ p := by revert p; decide

/-- The runs of R114 when one position takes a state that its neighbours allow. -/
theorem State.MembersLawful.of_state (hs : s.MembersLawful) {x : MemberState}
    (hst : ∀ q, (t.member q).state = if q = p then x else (s.member q).state)
    (hprev : p ≠ 1 → (s.member (p - 1)).state.MayPrecede x) (hnext : p ≠ 15 → x.MayPrecede (s.member (p + 1)).state)
    (hun : ∀ m, t.unanswered = some m → m.Admits → s.unanswered = some m ∧ (s.member p).state = .lost)
    (hd : ∀ q, .assign q ∈ t.chain.delivery → (.assign q ∈ s.chain.delivery ∧ q ≠ p) ∨ (q = p ∧ x = .admitting)) :
    t.MembersLawful where
  runs q h0 h15 := by
    rw [hst, hst]
    by_cases hq : q = p
    · rw [if_pos hq, if_neg (hq ▸ position_succ_ne q)]
      exact hq ▸ hnext (hq ▸ h15)
    · rw [if_neg hq]
      split
      · next hp =>
        have hq' := succ_position hp
        exact hq' ▸ hprev (by rintro rfl; exact h0 hq')
      · exact hs.runs q h0 h15
  called q hq := by
    obtain ⟨hu, hlost⟩ := hun _ hq (.inl ⟨q, rfl⟩)
    obtain ⟨h0, hvacant, hbelow⟩ := hs.called q hu
    have hne {r : Position} {y : MemberState} (hr : (s.member r).state = y) (hy : y ≠ .lost) : (t.member r).state = y := by
      rw [hst, if_neg fun h => hy (by rw [← hr, h, hlost]), hr]
    exact ⟨h0, hne hvacant (by simp), hbelow.imp id fun h => State.joined_iff.2 (hne (State.joined_iff.1 h) (by simp))⟩
  assigned q hq := by
    obtain ⟨hu, hlost⟩ := hun _ hq (.inr ⟨q, rfl⟩)
    have hadm := hs.assigned q hu
    rw [hst, if_neg fun h => by (rw [h, hlost] at hadm; cases hadm), hadm]
  waiting q hq := by
    rw [hst]
    rcases hd q hq with ⟨hq, hne⟩ | ⟨hq, hx⟩
    · rw [if_neg hne, hs.waiting q hq]
    · rw [if_pos hq, hx]

/-- The queue when a position that was not JOINED takes another state, and its ASSIGN comes or goes with it. -/
theorem State.QueueLawful.of_state (hs : s.QueueLawful) {x : MemberState}
    (hst : ∀ q, (t.member q).state = if q = p then x else (s.member q).state)
    (hans : ∀ q, (t.member q).answer = (s.member q).answer) (hq : t.engine.queue = s.engine.queue)
    (hp : (s.member p).state ≠ .joined) (hanswer : ∀ q, .answer q ∈ t.chain.delivery ↔ .answer q ∈ s.chain.delivery)
    (hassign : ∀ q, .assign q ∈ t.chain.delivery ↔ if q = p then x = .admitting else .assign q ∈ s.chain.delivery)
    (hn : t.chain.delivery.Nodup) : t.QueueLawful := by
  have joined {q : Position} (h : s.joined q = true) : t.joined q = true := by
    rw [State.joined_iff] at h ⊢
    rw [hst, if_neg fun hqp => hp (by rw [← hqp]; exact h), h]
  refine ⟨fun e he => joined (hs.joined e (hq ▸ he)), hq ▸ hs.once, fun q h => ?_, fun q => by rw [hanswer, hans, hs.answerDue], fun q => ?_, hn⟩
  · obtain ⟨hj, hqd⟩ := hs.answers q (hans q ▸ h)
    exact ⟨joined hj, (State.queued_congr (s := s) (t := t) (by rw [hq]) q).trans hqd⟩
  · rw [hassign, hst]
    split
    · rfl
    · exact hs.assignDue q

/-- A position that holds no member is named by no lease (R129). -/
theorem State.NamesLawful.unnamed (hs : s.NamesLawful) (h : ¬s.Holds p) : s.named p = false := by
  rw [State.named_eq_false_iff]
  refine fun i l hl => Lease.names_eq_false_iff.2 ⟨fun hsrc => h (hsrc ▸ hs.source i l hl), ?_⟩
  exact Bool.eq_false_iff.2 fun hla => h (hs.listeners i l p hl hla)

/-- The names when a position that no lease names takes another state. -/
theorem State.NamesLawful.of_state (hs : s.NamesLawful) (hl : t.leases = s.leases) (hp : s.named p = false)
    (hm : ∀ q, q ≠ p → t.member q = s.member q) : t.NamesLawful := by
  refine hs.of_members hl (fun q hq hh => ?_) fun q h0 hh => ?_
  · have hne : q ≠ p := fun h => by rw [h, hp] at hq; cases hq
    exact (State.holds_congr (by rw [hm q hne])).2 hh
  · by_cases hne : q = p
    · exact .inl (hne ▸ hp)
    · exact .inr ⟨(State.holds_congr (by rw [hm q hne])).1 hh, by rw [hm q hne]⟩

theorem State.not_holds (h0 : p ≠ 0) (h : (s.member p).state = .vacant ∨ (s.member p).state = .admitting) : ¬s.Holds p := by
  rintro (h' | h' | h')
  · exact h0 h'
  · rcases h with h | h <;> rw [h] at h' <;> cases h'
  · rcases h with h | h <;> rw [h] at h' <;> cases h'

/-- The laws when table and publisher are as they were, and no JOINED member is lost. -/
theorem State.Works.of_members (hs : s.Works) (hl : t.leases = s.leases) (hp : t.publisher = s.publisher)
    (hrun : t.chain.state = s.chain.state) (hj : ∀ p, s.joined p = true → t.joined p = true) (hm : t.MembersLawful)
    (hq : t.QueueLawful) (hn : t.NamesLawful) : t.Works where
  layout := hs.layout.congr hl fun set h => ⟨set, hp ▸ h, fun _ => id⟩
  members := hm
  queue := hq
  names := hn
  publisher := hs.publisher.of_keeps (.of_eq hl) hj (fun h => hrun.trans h) (.inl hp)

/-- The laws when nothing that they speak of has changed but the order of the deliveries. -/
theorem State.Works.congr (hs : s.Works) (hl : t.leases = s.leases) (hp : t.publisher = s.publisher)
    (hrun : t.chain.state = s.chain.state) (hm : ∀ p, (t.member p).state = (s.member p).state)
    (hid : ∀ p, (t.member p).identity = (s.member p).identity) (hans : ∀ p, (t.member p).answer ≠ none ↔ (s.member p).answer ≠ none)
    (hq : t.engine.queue.map QueueEntry.position = s.engine.queue.map QueueEntry.position)
    (hd : t.chain.delivery.Perm s.chain.delivery) (hu : ∀ m, t.unanswered = some m → m.Admits → s.unanswered = some m) : t.Works :=
  hs.of_members hl hp hrun (fun _ h => (State.joined_congr (hm _)).trans h)
    (hs.members.congr hm hu fun _ h => hd.mem_iff.1 h) (hs.queue.congr hm hans hq hd)
    (hs.names.of_members hl (fun p _ h => (State.holds_congr (hm p)).2 h) fun p _ h => .inr ⟨(State.holds_congr (hm p)).1 h, hid p⟩)

/-- A record is replaced by one of the same state, identity and answer. -/
theorem State.Works.setMember (hs : s.Works) {m : Member} (hst : m.state = (s.member p).state)
    (hid : m.identity = (s.member p).identity) (hans : m.answer ≠ none ↔ (s.member p).answer ≠ none) : (s.setMember p m).Works := by
  have field {α : Type} (f : Member → α) (h : f m = f (s.member p)) (q : Position) : f ((s.setMember p m).member q) = f (s.member q) := by
    rw [State.member_setMember]
    split
    · next h' => rw [h, h'.1]
    · rfl
  refine hs.congr (by simp) (by simp) (by simp) (field Member.state hst) (field Member.identity hid) (fun q => ?_) (by simp) (by simp)
    fun m h _ => by simpa [State.unanswered] using h
  rw [State.member_setMember]
  split
  · next h' => rw [hans, h'.1]
  · rfl

/-! ## Admission (R118 to R121) -/

theorem mem_withoutDelivery_answer {ds : List Delivery} {gone : Position → Bool} :
    .answer p ∈ withoutDelivery ds gone ↔ .answer p ∈ ds ∧ gone p = false := by simp [withoutDelivery]

theorem mem_withoutDelivery_assign {ds : List Delivery} {gone : Position → Bool} :
    .assign p ∈ withoutDelivery ds gone ↔ .assign p ∈ ds ∧ gone p = false := by simp [withoutDelivery]

theorem withoutDelivery_nodup {ds : List Delivery} {gone : Position → Bool} (h : ds.Nodup) : (withoutDelivery ds gone).Nodup :=
  h.filter _

theorem State.member_state_setMember (s : State) (h0 : p ≠ 0) (m : Member) (q : Position) :
    ((s.setMember p m).member q).state = if q = p then m.state else (s.member q).state := by
  rw [State.member_setMember]
  by_cases h : q = p <;> simp [h, h0]

theorem State.member_answer_setMember (s : State) {m : Member} (h : m.answer = (s.member p).answer) (q : Position) :
    ((s.setMember p m).member q).answer = (s.member q).answer := by
  rw [State.member_setMember]
  split
  · next h' => rw [h, h'.1]
  · rfl

theorem State.answer_none (hs : s.QueueLawful) (h : (s.member p).state ≠ .joined) : (s.member p).answer = none := by
  by_contra hne
  exact h (State.joined_iff.1 (hs.answers p hne).1)

/-- A JOIN is decided at a VACANT position right above the JOINED ones (R118, R119). -/
theorem State.Works.takeJoin (hs : s.Works) (h0 : p ≠ 0) (hv : (s.member p).state = .vacant)
    (hbelow : p = 1 ∨ s.joined (p - 1) = true) (hun : s.unanswered = none) (d : Identity) : (s.takeJoin p d).Works := by
  have hunnamed := hs.names.unnamed (State.not_holds h0 (.inl hv))
  have hnext : p ≠ 15 → (s.member (p + 1)).state = .vacant := fun h15 => by
    have h := hs.members.runs p h0 h15
    rw [hv] at h
    exact h
  have hassign : .assign p ∉ s.chain.delivery := fun h => by
    have := hs.members.waiting p h
    rw [hv] at this
    cases this
  have hother {m : Member} (q : Position) (hq : q ≠ p) : (s.setMember p m).member q = s.member q := State.member_setMember_of_ne s hq m
  unfold State.takeJoin
  dsimp only
  split
  · generalize hm : ({ s.member p with state := .admitting, identity := some d, misses := 0 } : Member) = m
    have hst := s.member_state_setMember h0 m
    have hans := s.member_answer_setMember (p := p) (m := m) (by rw [← hm])
    have hadm : m.state = .admitting := by rw [← hm]
    refine hs.of_members (by simp) (by simp) (by simp) (fun q hq => ?_) (hs.members.of_state hst (fun h1 => ?_) (fun h15 => ?_) (fun m' h' => ?_) fun q hq => ?_)
      (hs.queue.of_state hst hans (by simp) (by simp [hv]) (fun q => by simp) (fun q => ?_) ?_) (hs.names.of_state (by simp) hunnamed hother)
    · rw [State.joined_iff] at hq ⊢
      exact (hst q).trans (by rw [if_neg fun h => by (rw [h, hv] at hq; cases hq), hq])
    · rw [State.joined_iff.1 (hbelow.resolve_left h1)]
      trivial
    · rw [hadm]
      exact hnext h15
    · rw [State.unanswered] at h' hun
      simp only [State.setMember_chain] at h'
      rw [hun] at h'
      cases h'
    · simp only [State.setMember_chain, List.mem_append, List.mem_singleton, Delivery.assign.injEq] at hq
      rcases hq with hq | hq
      · exact .inl ⟨hq, fun h => hassign (h ▸ hq)⟩
      · exact .inr ⟨hq, hadm⟩
    · simp only [State.setMember_chain, List.mem_append, List.mem_singleton, Delivery.assign.injEq, hadm]
      by_cases h : q = p <;> simp [h]
    · simp only [State.setMember_chain, List.nodup_append, hs.queue.deliveries, List.nodup_singleton, List.mem_singleton, true_and, forall_eq]
      exact fun x hx hxa => hassign (hxa ▸ hx)
  · generalize hm : ({ s.member p with identity := some d } : Member) = m
    have hst := s.member_state_setMember h0 m
    have hans := s.member_answer_setMember (p := p) (m := m) (by rw [← hm])
    have hsame (q : Position) : ((s.setMember p m).member q).state = (s.member q).state := by
      rw [hst]
      split
      · next h => rw [← hm, h]
      · rfl
    refine hs.of_members (by simp) (by simp) (by simp) (fun q hq => ?_) (hs.members.congr (fun q => ?_) (fun m' h' _ => ?_) fun q hq => ?_)
      (hs.queue.congr (fun q => ?_) (fun q => ?_) (by simp) (by simp)) (hs.names.of_state (by simp) hunnamed fun q hq => ?_)
    · rw [State.joined, State.raiseMember_member, hsame]
      exact hq
    · rw [State.raiseMember_member, hsame]
    · simpa [State.unanswered] using h'
    · simpa using hq
    · rw [State.raiseMember_member, hsame]
    · rw [State.raiseMember_member, hans]
    · rw [State.raiseMember_member, hother q hq]

/-- An ADMITTING position becomes JOINED or VACANT, and its ASSIGN leaves the delivery list (R120, R121). -/
theorem State.Works.endAdmission (hs : s.Works) (ha : (s.member p).state = .admitting) (hun : s.unanswered = none) {m : Member}
    (hm : m.state = .joined ∨ m.state = .vacant) (hans : m.answer = (s.member p).answer) (r : Reasons) :
    (((s.setMember p m).dropDelivery p).raiseMember p r).Works := by
  have h0 : p ≠ 0 := by
    rintro rfl
    simp [Member.vacant] at ha
  have hst (q : Position) : ((((s.setMember p m).dropDelivery p).raiseMember p r).member q).state
      = if q = p then m.state else (s.member q).state := by
    rw [State.raiseMember_member, State.dropDelivery_member]
    exact s.member_state_setMember h0 m q
  have hdelivery : (((s.setMember p m).dropDelivery p).raiseMember p r).chain.delivery
      = withoutDelivery s.chain.delivery fun q => q == p := by simp
  have hanswers (q : Position) : ((((s.setMember p m).dropDelivery p).raiseMember p r).member q).answer = (s.member q).answer := by
    rw [State.raiseMember_member, State.dropDelivery_member]
    exact s.member_answer_setMember hans q
  have noAnswer : .answer p ∉ s.chain.delivery := fun h =>
    (hs.queue.answerDue p).1 h (State.answer_none hs.queue (by simp [ha]))
  refine hs.of_members (by simp) (by simp) (by simp) (fun q hq => ?_)
    (hs.members.of_state hst (fun h1 => ?_) (fun h15 => ?_) (fun m' h' => ?_) fun q hq => ?_)
    (hs.queue.of_state hst hanswers (by simp) (by simp [ha]) (fun q => ?_) (fun q => ?_) ?_)
    (hs.names.of_state (by simp) (hs.names.unnamed (State.not_holds h0 (.inr ha))) fun q hq => ?_)
  · rw [State.joined_iff] at hq ⊢
    rw [hst, if_neg fun h => by (rw [h, ha] at hq; cases hq), hq]
  · have h := hs.members.runs (p - 1) (fun h => h1 (by rw [← position_pred_succ h0, h]; rfl))
      (fun h => h0 (by rw [← position_pred_succ h0, h]; rfl))
    rw [position_pred_succ h0] at h
    rcases h.below (by simp [ha]) with h | ⟨-, h⟩
    · rw [h]
      trivial
    · rw [ha] at h
      cases h
  · have h := hs.members.runs p h0 h15
    rw [ha] at h
    rw [show (s.member (p + 1)).state = .vacant from h]
    rcases hm with hm | hm <;> rw [hm]
    · trivial
    · rfl
  · rw [State.unanswered] at h' hun
    simp only [State.raiseMember_chain, State.dropDelivery_chain, State.setMember_chain] at h'
    rw [hun] at h'
    cases h'
  · rw [hdelivery, mem_withoutDelivery_assign] at hq
    exact .inl ⟨hq.1, by simpa using hq.2⟩
  · rw [hdelivery, mem_withoutDelivery_answer]
    refine and_iff_left_of_imp fun h => ?_
    by_contra hqp
    rw [show q = p by simpa using hqp] at h
    exact noAnswer h
  · rw [hdelivery, mem_withoutDelivery_assign]
    by_cases h : q = p
    · rcases hm with hm | hm <;> simp [h, hm]
    · simp [h]
  · rw [hdelivery]
    exact withoutDelivery_nodup hs.queue.deliveries
  · rw [State.raiseMember_member, State.dropDelivery_member, State.member_setMember_of_ne s hq]

theorem State.Works.joinMember (hs : s.Works) (ha : (s.member p).state = .admitting) (hun : s.unanswered = none) :
    (s.joinMember p).Works :=
  hs.endAdmission ha hun (m := { s.member p with state := .joined, misses := 0 }) (.inl rfl) rfl _

theorem State.Works.failAdmission (hs : s.Works) (ha : (s.member p).state = .admitting) (hun : s.unanswered = none) :
    (s.failAdmission p).Works :=
  hs.endAdmission ha hun (m := { s.member p with state := .vacant, identity := none, misses := 0 }) (.inr rfl) rfl _

/-! ## Release (R129) -/

theorem State.Works.releaseOne (hs : s.Works) (p : Position) : (s.releaseOne p).Works := by
  unfold State.releaseOne
  dsimp only
  split
  · next h =>
    obtain ⟨hlost, hunnamed, habove⟩ := h
    have h0 : p ≠ 0 := by
      rintro rfl
      simp [Member.vacant] at hlost
    generalize hm : ({ s.member p with state := .vacant, identity := none, misses := 0 } : Member) = m
    have hv : m.state = .vacant := by rw [← hm]
    have hst (q : Position) : (((s.setMember p m).raiseMember p Reason.vacated).member q).state
        = if q = p then m.state else (s.member q).state := by
      rw [State.raiseMember_member]
      exact s.member_state_setMember h0 m q
    have hans (q : Position) : (((s.setMember p m).raiseMember p Reason.vacated).member q).answer = (s.member q).answer := by
      rw [State.raiseMember_member]
      exact s.member_answer_setMember (by rw [← hm]) q
    have hassign : .assign p ∉ s.chain.delivery := fun h => by
      have := hs.members.waiting p h
      rw [hlost] at this
      cases this
    refine hs.of_members (by simp) (by simp) (by simp) (fun q hq => ?_)
      (hs.members.of_state hst (fun h1 => ?_) (fun h15 => ?_) (fun m' h' _ => ⟨?_, hlost⟩) fun q hq => .inl ⟨?_, ?_⟩)
      (hs.queue.of_state hst hans (by simp) (by simp [hlost]) (fun q => by simp) (fun q => ?_) (by simpa using hs.queue.deliveries))
      (hs.names.of_state (by simp) hunnamed fun q hq => ?_)
    · rw [State.joined_iff] at hq ⊢
      rw [hst, if_neg fun h => by (rw [h, hlost] at hq; cases hq), hq]
    · have h := hs.members.runs (p - 1) (fun h => h1 (by rw [← position_pred_succ h0, h]; rfl))
        (fun h => h0 (by rw [← position_pred_succ h0, h]; rfl))
      rw [position_pred_succ h0] at h
      rcases h.below (by simp [hlost]) with h | ⟨h, -⟩ <;> rw [h, hv]
      · trivial
      · exact .inr rfl
    · rw [hv, habove.resolve_left h15]
      rfl
    · simpa [State.unanswered] using h'
    · simpa using hq
    · rintro rfl
      exact hassign (by simpa using hq)
    · by_cases h : q = p
      · simp [h, hv, hassign]
      · simp [h]
    · rw [State.raiseMember_member, State.member_setMember_of_ne s hq]
  · exact hs

theorem State.Works.releaseLost (hs : s.Works) : s.releaseLost.Works :=
  State.releaseLost_keeps (P := State.Works) (fun _ p h => h.releaseOne p) hs

end

end Sys2Proof.Machine
end

section
/-! PROOFS. What a loss, a miss, the intake and the response word keep (R87, R88, R121 to R132, R146 to R148). -/

namespace Sys2Proof.Machine

section
variable {s t : State} {p k : Position}

/-! ## The notices of the set in flight change (R87, R88) -/

theorem State.changeNotices_set? (s : State) (f : List Notice → List Notice) :
    (s.changeNotices f).publisher.stage.set?
      = s.publisher.stage.set?.map fun set => { set with notices := f set.notices } := by
  unfold State.changeNotices
  cases h : s.publisher.stage with
  | notifying set =>
    dsimp only
    split <;> rfl
  | switching set fr => rfl
  | idle | batching => simp [h, PublisherStage.set?]

theorem State.changeNotices_publisher (s : State) (f : List Notice → List Notice) :
    (s.changeNotices f).publisher = { s.publisher with stage := (s.changeNotices f).publisher.stage } := by
  unfold State.changeNotices
  split <;> rfl

/-- The stage when the notices change: the set told anew, or the stage as it was. -/
theorem State.changeNotices_stage (s : State) (f : List Notice → List Notice) :
    (∃ set, s.publisher.stage = .notifying set ∧ allSettled (f set.notices) = false
        ∧ (s.changeNotices f).publisher.stage = .notifying { set with notices := f set.notices })
    ∨ (∃ set, s.publisher.stage = .notifying set ∧ allSettled (f set.notices) = true
        ∧ (s.changeNotices f).publisher.stage = .switching { set with notices := f set.notices } s.switchFrameNow)
    ∨ (∃ set fr, s.publisher.stage = .switching set fr
        ∧ (s.changeNotices f).publisher.stage = .switching { set with notices := f set.notices } fr)
    ∨ (s.publisher.stage.set? = none ∧ (s.changeNotices f).publisher.stage = s.publisher.stage) := by
  unfold State.changeNotices
  cases h : s.publisher.stage with
  | notifying set =>
    dsimp only
    split
    · next ha => exact .inr (.inl ⟨set, rfl, ha, rfl⟩)
    · next ha => exact .inl ⟨set, rfl, Bool.eq_false_iff.2 ha, rfl⟩
  | switching set fr => exact .inr (.inr (.inl ⟨set, fr, rfl, rfl⟩))
  | idle | batching => simp [h, PublisherStage.set?]

/-- The law of the publisher when the notices change: those that are OPEN are of JOINED members, and none opens anew. -/
theorem State.PublisherLawful.changeNotices (hs : s.PublisherLawful) {f : List Notice → List Notice} (hp : t.publisher = s.publisher)
    (hl : t.leases = s.leases) (hrun : t.chain.state = s.chain.state)
    (hopen : ∀ set, s.publisher.stage.set? = some set → ∀ n ∈ f set.notices, n.acked = false → t.joined n.position = true)
    (htold : ∀ ns : List Notice, (∀ n ∈ ns, n.acked = true) → ∀ n ∈ f ns, n.acked = true) : (t.changeNotices f).PublisherLawful := by
  have hstage := t.changeNotices_stage f
  have hset := t.changeNotices_set? f
  have hpub := t.changeNotices_publisher f
  rw [hp] at hstage hset hpub
  have old {set' : ChangeSet} (h : (t.changeNotices f).publisher.stage.set? = some set') :
      ∃ set, s.publisher.stage.set? = some set ∧ { set with notices := f set.notices } = set' := by
    rwa [hset, Option.map_eq_some_iff] at h
  refine ⟨fun hne => ?_, fun fr hfr => ?_, fun set' h => ?_, fun set' h => ?_, fun set' h => ?_, fun set' h => ?_, fun set' h => ?_,
    fun set' h => ?_, fun set' fr h => ?_⟩
  · rw [State.changeNotices_chain, hrun]
    refine hs.running fun hidle => hne ?_
    rcases hstage with ⟨_, h, -⟩ | ⟨_, h, -⟩ | ⟨_, _, h, -⟩ | ⟨-, h⟩
    · cases h.symm.trans hidle
    · cases h.symm.trans hidle
    · cases h.symm.trans hidle
    · exact h.trans hidle
  · rw [hpub]
    refine hs.batching fr ?_
    rcases hstage with ⟨_, -, -, h⟩ | ⟨_, -, -, h⟩ | ⟨_, _, -, h⟩ | ⟨-, h⟩
    · cases h.symm.trans hfr
    · cases h.symm.trans hfr
    · cases h.symm.trans hfr
    · exact h.symm.trans hfr
  · obtain ⟨set, hold, rfl⟩ := old h
    rw [hpub]
    exact hs.number set hold
  · obtain ⟨set, hold, rfl⟩ := old h
    exact hs.filled set hold
  · obtain ⟨set, hold, rfl⟩ := old h
    exact hs.ascending set hold
  · obtain ⟨set, hold, rfl⟩ := old h
    intro d hd
    rw [State.changeNotices_leases, hl]
    exact hs.agrees set hold d hd
  · obtain ⟨set, hold, rfl⟩ := old h
    intro n hn ho
    rw [State.joined_congr (s := t) (by rw [State.changeNotices_member])]
    exact hopen set hold n hn ho
  · rcases hstage with ⟨set, -, ha, h'⟩ | ⟨_, -, -, h'⟩ | ⟨_, _, -, h'⟩ | ⟨hnone, h'⟩ <;> rw [h'] at h
    · cases h
      exact not_allSettled_iff.1 (by simp [ha])
    · cases h
    · cases h
    · rw [h] at hnone
      cases hnone
  · rcases hstage with ⟨_, -, -, h'⟩ | ⟨_, -, ha, h'⟩ | ⟨set, fr', hsw, h'⟩ | ⟨hnone, h'⟩ <;> rw [h'] at h
    · cases h
    · cases h
      exact allSettled_iff.1 ha
    · cases h
      exact htold _ (hs.told set _ hsw)
    · rw [h] at hnone
      cases hnone

/-- The laws when the members change and the notices of the set in flight with them. -/
theorem State.Works.changeNotices (hs : s.Works) {f : List Notice → List Notice} (hp : t.publisher = s.publisher)
    (hl : t.leases = s.leases) (hrun : t.chain.state = s.chain.state) (hm : t.MembersLawful) (hq : t.QueueLawful) (hn : t.NamesLawful)
    (hopen : ∀ set, s.publisher.stage.set? = some set → ∀ n ∈ f set.notices, n.acked = false → t.joined n.position = true)
    (htold : ∀ ns : List Notice, (∀ n ∈ ns, n.acked = true) → ∀ n ∈ f ns, n.acked = true) : (t.changeNotices f).Works where
  layout := hs.layout.congr (by simpa using hl) fun set h => by
    rw [t.changeNotices_set? f, hp, h]
    exact ⟨_, rfl, fun _ => id⟩
  members := hm.congr (fun q => by simp) (fun m h _ => by simpa [State.unanswered] using h) fun q h => by simpa using h
  queue := hq.congr (fun q => by simp) (fun q => by simp) (by simp) (by simp)
  names := hn.of_members (by simp) (fun q _ h => (State.holds_congr (by simp)).2 h) fun q _ h =>
    .inr ⟨(State.holds_congr (by simp)).1 h, by simp⟩
  publisher := hs.publisher.changeNotices hp hl hrun hopen htold

/-! ## The cascade of a loss (R124, R125) -/

theorem Member.sweep_state (m : Member) :
    m.sweep.state = match m.state with | .joined => .lost | .admitting => .vacant | x => x := by
  unfold Member.sweep
  cases h : m.state <;> simp [h]

theorem State.swept_iff : s.swept k p = true ↔ k ≤ p ∧ ((s.member p).state = .joined ∨ (s.member p).state = .admitting) := by
  simp [State.swept]

/-- The records after the sweep of a loss (R124). -/
theorem State.cascade_member (s : State) (k p : Position) :
    (s.cascade k).member p = if s.swept k p = true then (s.member p).sweep else s.member p := by
  unfold State.cascade
  rw [State.changeNotices_member]
  by_cases h0 : p = 0
  · subst h0
    have hs : s.swept k 0 = false := by simp [State.swept, Member.vacant]
    rw [hs]
    simp
  · simp [State.member, h0, State.sweptRecords, positionAt_memberIndex h0]

/-- A position at or above the loss, and one below it (R124). -/
theorem State.cascade_state (s : State) (k p : Position) : ((s.cascade k).member p).state
    = if k ≤ p then (s.member p).sweep.state else (s.member p).state := by
  rw [State.cascade_member, apply_ite Member.state]
  by_cases hk : k ≤ p
  · rw [if_pos hk]
    split
    · rfl
    · next h =>
      rw [State.swept_iff, not_and] at h
      have h := h hk
      rw [Member.sweep_state]
      cases hp : (s.member p).state <;> simp_all
  · rw [if_neg hk, if_neg (by rw [State.swept_iff]; exact fun h => hk h.1)]

theorem Member.sweep_runs {a b : Member} (h : a.state.MayPrecede b.state) : a.sweep.state.MayPrecede b.sweep.state := by
  rw [Member.sweep_state, Member.sweep_state]
  cases ha : a.state <;> rw [ha] at h <;> cases hb : b.state <;> rw [hb] at h <;> simp_all [MemberState.MayPrecede]

theorem position_le_succ (h : p ≠ 15) : k ≤ p + 1 ↔ k ≤ p ∨ k = p + 1 := by revert p k; decide

/-- The runs of R114 after a loss at a JOINED position. -/
theorem State.cascade_runs (hs : s.MembersLawful) (hk : (s.member k).state = .joined) (h0 : p ≠ 0) (h15 : p ≠ 15) :
    ((s.cascade k).member p).state.MayPrecede ((s.cascade k).member (p + 1)).state := by
  have h := hs.runs p h0 h15
  rw [State.cascade_state, State.cascade_state]
  by_cases hkp : k ≤ p
  · rw [if_pos hkp, if_pos ((position_le_succ h15).2 (.inl hkp))]
    exact Member.sweep_runs h
  · rw [if_neg hkp]
    split
    · next hle =>
      rw [((position_le_succ h15).1 hle).resolve_left hkp] at hk
      rcases h.below (by simp [hk]) with h | ⟨-, h⟩
      · rw [h]
        trivial
      · rw [hk] at h
        cases h
    · exact h

theorem Member.sweep_answer {m : Member} (h : m.state = .joined ∨ m.state = .admitting) : m.sweep.answer = none := by
  unfold Member.sweep
  rcases h with h | h <;> rw [h]

theorem State.cascade_answer (s : State) (k p : Position) :
    ((s.cascade k).member p).answer ≠ none ↔ (s.member p).answer ≠ none ∧ s.swept k p = false := by
  rw [State.cascade_member]
  by_cases h : s.swept k p = true
  · rw [if_pos h, Member.sweep_answer (State.swept_iff.1 h).2]
    simp [h]
  · simp [h]

theorem State.cascade_joined (s : State) (k p : Position) : (s.cascade k).joined p = true ↔ s.joined p = true ∧ s.swept k p = false := by
  rw [State.joined_iff, State.joined_iff, State.cascade_member]
  by_cases h : s.swept k p = true
  · rw [if_pos h, Member.sweep_state, h]
    cases (s.member p).state <;> simp
  · simp [h]

theorem State.cascade_admitting (s : State) (k p : Position) :
    ((s.cascade k).member p).state = .admitting ↔ (s.member p).state = .admitting ∧ s.swept k p = false := by
  rw [State.cascade_member]
  by_cases h : s.swept k p = true
  · rw [if_pos h, Member.sweep_state, h]
    cases (s.member p).state <;> simp
  · simp [h]

theorem State.cascade_holds (s : State) (k p : Position) : (s.cascade k).Holds p ↔ s.Holds p := by
  have hst : ((s.cascade k).member p).state = .joined ∨ ((s.cascade k).member p).state = .lost
      ↔ (s.member p).state = .joined ∨ (s.member p).state = .lost := by
    rw [State.cascade_state]
    split
    · rw [Member.sweep_state]
      cases (s.member p).state <;> simp
    · rfl
  exact or_congr_right hst

theorem State.cascade_identity (s : State) (h : ((s.cascade k).member p).state = .joined ∨ ((s.cascade k).member p).state = .lost) :
    ((s.cascade k).member p).identity = (s.member p).identity := by
  rw [State.cascade_member] at h ⊢
  split at h
  · next hsw =>
    rw [if_pos hsw]
    rcases (State.swept_iff.1 hsw).2 with hp | hp
    · simp [Member.sweep, hp]
    · rw [Member.sweep_state, hp] at h
      rcases h with h | h <;> cases h
  · next hsw => rw [if_neg hsw]

theorem State.cascade_queue (s : State) (k : Position) :
    (s.cascade k).engine.queue = s.engine.queue.filter fun e => !s.swept k e.position := by simp [State.cascade]

theorem State.cascade_delivery (s : State) (k : Position) :
    (s.cascade k).chain.delivery = withoutDelivery s.chain.delivery (s.swept k) := by simp [State.cascade]

/-- The laws of members and queue after the cascade of a loss (R124, R125). -/
theorem State.cascade_membersLawful (hs : s.MembersLawful) (hk : (s.member k).state = .joined) (hun : s.unanswered = none) :
    (s.cascade k).MembersLawful where
  runs p h0 h15 := State.cascade_runs hs hk h0 h15
  called q h := by
    have hun' : (s.cascade k).unanswered = none := by simpa [State.unanswered, State.cascade] using hun
    cases hun'.symm.trans h
  assigned q h := by
    have hun' : (s.cascade k).unanswered = none := by simpa [State.unanswered, State.cascade] using hun
    cases hun'.symm.trans h
  waiting q h := by
    rw [State.cascade_delivery, mem_withoutDelivery_assign] at h
    exact (s.cascade_admitting k q).2 ⟨hs.waiting q h.1, h.2⟩

theorem State.cascade_queueLawful (hs : s.QueueLawful) (k : Position) : (s.cascade k).QueueLawful where
  joined e he := by
    rw [State.cascade_queue, List.mem_filter] at he
    exact (s.cascade_joined k _).2 ⟨hs.joined e he.1, by simpa using he.2⟩
  once := by
    rw [State.cascade_queue]
    exact hs.once.sublist (List.filter_sublist.map _)
  answers q h := by
    obtain ⟨ha, hsw⟩ := (s.cascade_answer k q).1 h
    obtain ⟨hj, hq⟩ := hs.answers q ha
    refine ⟨(s.cascade_joined k q).2 ⟨hj, hsw⟩, Bool.eq_false_iff.2 fun hq' => ?_⟩
    rw [State.queued_iff, State.cascade_queue] at hq'
    rw [Bool.eq_false_iff, ne_eq, State.queued_iff] at hq
    exact hq ((List.filter_sublist.map _).subset hq')
  answerDue q := by rw [State.cascade_delivery, mem_withoutDelivery_answer, hs.answerDue, State.cascade_answer]
  assignDue q := by rw [State.cascade_delivery, mem_withoutDelivery_assign, hs.assignDue, State.cascade_admitting]
  deliveries := by
    rw [State.cascade_delivery]
    exact withoutDelivery_nodup hs.deliveries

theorem State.cascade_namesLawful (hs : s.NamesLawful) (k : Position) : (s.cascade k).NamesLawful :=
  hs.of_members (s.cascade_leases k) (fun q _ h => (s.cascade_holds k q).2 h) fun q h0 h =>
    .inr ⟨(s.cascade_holds k q).1 h, s.cascade_identity (h.resolve_left h0)⟩

/-- The laws after the cascade of a loss. -/
theorem State.Works.cascade (hs : s.Works) (hk : (s.member k).state = .joined) (hun : s.unanswered = none) : (s.cascade k).Works := by
  have hm := State.cascade_membersLawful hs.members hk hun
  have hq := State.cascade_queueLawful hs.queue k
  have hn := State.cascade_namesLawful hs.names k
  have hj := s.cascade_joined k
  unfold State.cascade at hm hq hn hj ⊢
  dsimp only at hm hq hn hj ⊢
  generalize ht : ({ s with
    members := { s.members with records := s.sweptRecords k }
    engine := { s.engine with queue := s.engine.queue.filter fun e => !s.swept k e.position }
    chain := { s.chain with delivery := withoutDelivery s.chain.delivery (s.swept k) }
    attention := { s.attention with
      device := if k = 1 then s.attention.device ||| Reason.linkLost else s.attention.device
      members := s.sweptItems k } } : State) = t at hm hq hn hj ⊢
  refine hs.changeNotices (t := t) (by rw [← ht]) (by rw [← ht]) (by rw [← ht])
    (hm.congr (fun q => by simp) (fun m h _ => by simpa [State.unanswered] using h) fun q h => by simpa using h)
    (hq.congr (fun q => by simp) (fun q => by simp) (by simp) (by simp))
    (hn.of_members (by simp) (fun q _ h => (State.holds_congr (by simp)).2 h) fun q _ h =>
      .inr ⟨(State.holds_congr (by simp)).1 h, by simp⟩) (fun set hset n hmem ho => ?_) fun ns hns n hmem => hns n (List.mem_filter.1 hmem).1
  obtain ⟨hmem, hkeep⟩ := List.mem_filter.1 hmem
  rw [ho, Bool.false_or, Bool.not_eq_true'] at hkeep
  have := (hj n.position).2 ⟨hs.publisher.openAre set hset n hmem ho, hkeep⟩
  rwa [State.joined_congr (s := t) (by rw [State.changeNotices_member])] at this

end

end Sys2Proof.Machine
end

section
/-! PROOFS. What a loss, a miss, the intake, an answer to a member and the response word keep (R43, R121 to R132, R146 to R148). -/

namespace Sys2Proof.Machine

section
variable {s t : State} {p k : Position}

/-! ## Loss and misses (R121 to R123) -/

theorem State.Works.loseMember (hs : s.Works) (htab : s.TableLawful) (hk : (s.member k).state = .joined) (hun : s.unanswered = none) :
    (s.loseMember k).Works := by
  unfold State.loseMember
  exact ((hs.cascade hk hun).calm (htab.congr (s.cascade_leases k)) (State.onEveryEntry_onTable _ _)
    (.onEveryEntry fun _ => Entry.takes_cleanup _ _)).releaseLost

theorem State.unanswered_congr (h : t.chain = s.chain) : t.unanswered = s.unanswered := by
  unfold State.unanswered
  rw [h]

theorem State.Works.countMiss (hs : s.Works) (htab : s.TableLawful) (hun : s.unanswered = none) : (s.countMiss p).Works := by
  have hset := hs.setMember (p := p) (m := { s.member p with misses := (s.member p).misses + 1 }) rfl rfl Iff.rfl
  have hun' : (s.setMember p { s.member p with misses := (s.member p).misses + 1 }).unanswered = none :=
    (State.unanswered_congr (s := s) (State.setMember_chain ..)).trans hun
  have hstate : ((s.setMember p { s.member p with misses := (s.member p).misses + 1 }).member p).state = (s.member p).state := by
    rw [State.member_setMember]
    split <;> rfl
  rcases s.countMiss_cases p with ⟨h, -⟩ | ⟨h, -, hj⟩ | ⟨h, -, ha⟩ <;> rw [h]
  · exact hset
  · exact hset.loseMember (htab.congr (by simp)) (hstate.trans hj) hun'
  · exact hset.failAdmission (hstate.trans ha) hun'

theorem State.Works.clearMisses (hs : s.Works) (p : Position) : (s.clearMisses p).Works :=
  hs.setMember rfl rfl Iff.rfl

/-! ## The intake and the pending answers (R43, R45, R131, R132) -/

theorem overrunQueue_positions (q : List QueueEntry) (p : Position) :
    (overrunQueue q p).map QueueEntry.position = q.map QueueEntry.position := by
  unfold overrunQueue
  rw [List.map_map]
  refine List.map_congr_left fun e _ => ?_
  rw [Function.comp_apply]
  split <;> rfl

/-- A JOINED position without request or answer puts a request into the queue. -/
theorem State.QueueLawful.enqueue (hs : s.QueueLawful) {e : QueueEntry} (hj : s.joined e.position = true)
    (hq : s.queued e.position = false) (ha : (s.member e.position).answer = none) (hm : t.members = s.members)
    (hd : t.chain.delivery = s.chain.delivery) (he : t.engine.queue = s.engine.queue ++ [e]) : t.QueueLawful := by
  have hmem (q : Position) : t.member q = s.member q := by unfold State.member; rw [hm]
  have hnot : e.position ∉ s.engine.queue.map QueueEntry.position := fun h => by
    rw [State.queued_iff.2 h] at hq
    cases hq
  refine ⟨fun e' he' => ?_, ?_, fun q h => ?_, fun q => by rw [hd, hmem, hs.answerDue], fun q => by rw [hd, hmem, hs.assignDue], hd ▸ hs.deliveries⟩
  · rw [State.joined_congr (s := s) (by rw [hmem])]
    rw [he, List.mem_append, List.mem_singleton] at he'
    rcases he' with he' | rfl
    · exact hs.joined e' he'
    · exact hj
  · rw [he, List.map_append, List.nodup_append]
    refine ⟨hs.once, List.nodup_singleton _, fun x hx y hy => ?_⟩
    rw [List.map_singleton, List.mem_singleton] at hy
    rw [hy]
    exact fun h => hnot (h ▸ hx)
  · rw [hmem] at h
    obtain ⟨hj', hq'⟩ := hs.answers q h
    refine ⟨(State.joined_congr (by rw [hmem])).trans hj', Bool.eq_false_iff.2 fun hqt => ?_⟩
    rw [State.queued_iff, he, List.map_append, List.mem_append, List.map_singleton, List.mem_singleton] at hqt
    rcases hqt with hqt | rfl
    · rw [State.queued_iff.2 hqt] at hq'
      cases hq'
    · exact h ha

theorem State.intake_state (s : State) (p : Position) (x : BitVec 40) (q : Position) :
    ((s.intake p x).member q).state = (s.member q).state := by
  unfold State.intake
  split
  · split
    · rfl
    · split
      · rw [State.member_setMember]
        split
        · next h => rw [h.1]
        · rfl
      · rfl
  · rfl

theorem State.Works.intake (hs : s.Works) (p : Position) (x : BitVec 40) : (s.intake p x).Works := by
  unfold State.intake
  split
  · next hj =>
    split
    · exact hs.congr rfl rfl rfl (fun _ => rfl) (fun _ => rfl) (fun _ => Iff.rfl) (overrunQueue_positions _ _) (.refl _) fun _ h _ => h
    · next hq =>
      split
      · next a ha => exact hs.setMember rfl rfl (by simp [ha])
      · next ha =>
        exact hs.of_members rfl rfl rfl (fun _ => id) (hs.members.congr (fun _ => rfl) (fun _ h _ => h) fun _ => id)
          (hs.queue.enqueue hj (Bool.eq_false_iff.2 hq) ha rfl rfl rfl) (hs.names.of_members rfl (fun _ _ => id) fun _ _ h => .inr ⟨h, rfl⟩)
  · exact hs

/-- The head of the queue leaves it (R44). -/
theorem State.QueueLawful.dequeued (hs : s.QueueLawful) {e : QueueEntry} {rest : List QueueEntry} (hq : s.engine.queue = e :: rest) :
    (s.dequeued rest).QueueLawful := by
  have hsub {e' : QueueEntry} (h : e' ∈ rest) : e' ∈ s.engine.queue := hq ▸ List.mem_cons_of_mem e h
  have honce : (e :: rest).map QueueEntry.position |>.Nodup := hq ▸ hs.once
  refine ⟨fun e' he' => hs.joined e' (hsub he'), (List.nodup_cons.1 honce).2, fun q h => ?_, hs.answerDue, hs.assignDue, hs.deliveries⟩
  obtain ⟨hj, hnq⟩ := hs.answers q h
  refine ⟨hj, Bool.eq_false_iff.2 fun h' => ?_⟩
  have h' := State.queued_iff.1 h'
  rw [State.queued_iff.2 (by rw [hq]; exact List.mem_cons_of_mem _ h')] at hnq
  cases hnq

theorem State.Works.dequeued (hs : s.Works) {e : QueueEntry} {rest : List QueueEntry} (hq : s.engine.queue = e :: rest) :
    (s.dequeued rest).Works :=
  hs.of_members rfl rfl rfl (fun _ => id) (hs.members.congr (fun _ => rfl) (fun _ h _ => h) fun _ => id) (hs.queue.dequeued hq)
    (hs.names.of_members rfl (fun _ _ => id) fun _ _ h => .inr ⟨h, rfl⟩)

/-- The sender of the request at the head of the queue is JOINED, has no other request, and no pending answer (R43). -/
theorem State.QueueLawful.head (hs : s.QueueLawful) {e : QueueEntry} {rest : List QueueEntry} (hq : s.engine.queue = e :: rest) :
    s.joined e.position = true ∧ e.position ∉ rest.map QueueEntry.position ∧ (s.member e.position).answer = none := by
  have honce : (e :: rest).map QueueEntry.position |>.Nodup := hq ▸ hs.once
  refine ⟨hs.joined e (by rw [hq]; exact List.mem_cons_self), (List.nodup_cons.1 honce).1, ?_⟩
  by_contra hne
  have := (hs.answers _ hne).2
  rw [State.queued_iff.2 (by rw [hq]; exact List.mem_cons_self)] at this
  cases this

/-- The answer to a member becomes its pending answer and waits for the control slot (R45, R143). -/
theorem State.QueueLawful.pend (hs : s.QueueLawful) {e : QueueEntry} (hj : s.joined e.position = true) (hq : s.queued e.position = false)
    (ha : (s.member e.position).answer = none) (st : Status) (h : Handle) (r : BitVec 22) : (s.pend e st h r).QueueLawful := by
  have h0 := State.joined_ne_zero hj
  have hstate (q : Position) : ((s.pend e st h r).member q).state = (s.member q).state := by
    unfold State.pend
    exact (s.member_state_setMember h0 _ q).trans (by split <;> simp_all)
  have hanswer (q : Position) : ((s.pend e st h r).member q).answer ≠ none ↔ q = e.position ∨ (s.member q).answer ≠ none := by
    unfold State.pend
    change ((s.setMember _ _).member q).answer ≠ none ↔ _
    rw [State.member_setMember]
    by_cases hqe : q = e.position <;> simp [hqe, h0]
  have hdel : (s.pend e st h r).chain.delivery = s.chain.delivery ++ [.answer e.position] := by simp [State.pend]
  have hqueue : (s.pend e st h r).engine.queue = s.engine.queue := by simp [State.pend]
  have hnone : .answer e.position ∉ s.chain.delivery := fun hmem => (hs.answerDue _).1 hmem ha
  refine ⟨fun e' he' => ?_, hqueue ▸ hs.once, fun q hq' => ?_, fun q => ?_, fun q => ?_, ?_⟩
  · rw [State.joined_congr (hstate _)]
    exact hs.joined e' (hqueue ▸ he')
  · rw [State.joined_congr (hstate q), State.queued_congr (s := s) (by rw [hqueue])]
    rcases (hanswer q).1 hq' with rfl | hq'
    · exact ⟨hj, hq⟩
    · exact hs.answers q hq'
  · rw [hdel, hanswer, List.mem_append, List.mem_singleton, hs.answerDue, Delivery.answer.injEq, or_comm]
  · rw [hdel, hstate, List.mem_append, List.mem_singleton, ← hs.assignDue]
    simp
  · rw [hdel, List.nodup_append]
    refine ⟨hs.deliveries, List.nodup_singleton _, fun x hx y hy => ?_⟩
    rw [List.mem_singleton.1 hy]
    exact fun h => hnone (h ▸ hx)

theorem State.Works.pend (hs : s.Works) {e : QueueEntry} (hj : s.joined e.position = true) (hq : s.queued e.position = false)
    (ha : (s.member e.position).answer = none) (st : Status) (h : Handle) (r : BitVec 22) : (s.pend e st h r).Works := by
  have h0 := State.joined_ne_zero hj
  have field {α : Type} (f : Member → α) (hf : ∀ m a, f { m with answer := a } = f m) (q : Position) :
      f ((s.pend e st h r).member q) = f (s.member q) := by
    unfold State.pend
    change f ((s.setMember _ _).member q) = _
    rw [State.member_setMember]
    split
    · next h' => rw [hf, h'.1]
    · rfl
  have hstate := field Member.state fun _ _ => rfl
  refine hs.of_members (by simp [State.pend]) (by simp [State.pend]) (by simp [State.pend]) (fun q hq => (State.joined_congr (hstate q)).trans hq)
    (hs.members.congr hstate (fun m h _ => by simpa [State.unanswered, State.pend] using h) fun q h => by simpa [State.pend] using h)
    (hs.queue.pend hj hq ha st h r)
    (hs.names.of_members (by simp [State.pend]) (fun q _ hh => (State.holds_congr (hstate q)).2 hh) fun q _ hh =>
      .inr ⟨(State.holds_congr (hstate q)).1 hh, field Member.identity (fun _ _ => rfl) q⟩)

/-! ## The response word (R146 to R148) -/

/-- The progress of the frame moves on, and it waits for no other response than before. -/
theorem State.Works.setFrame (hs : s.Works) {f : FrameProgress}
    (hu : ∀ m, (s.setFrame f).unanswered = some m → m.Admits → s.unanswered = some m) : (s.setFrame f).Works :=
  hs.congr rfl rfl rfl (fun _ => rfl) (fun _ => rfl) (fun _ => Iff.rfl) rfl (.refl _) hu

theorem State.responded_unanswered (s : State) : (s.setFrame { s.chain.frame with responded := true }).unanswered = none := rfl

theorem State.Works.responded (hs : s.Works) : (s.setFrame { s.chain.frame with responded := true }).Works :=
  hs.setFrame fun m h => by cases (s.responded_unanswered).symm.trans h

theorem State.unanswered_of_due (h : s.chain.frame.responded = false) : s.unanswered = s.chain.frame.control.map Control.message := by
  simp [State.unanswered, h]

theorem mem_ackNotice {d : Nat} {n : Notice} {ns : List Notice} (h : n ∈ ackNotice d p ns) :
    ∃ m ∈ ns, n.delta = m.delta ∧ n.position = m.position ∧ (m.acked = true → n.acked = true) ∧ (n.acked = false → n = m) := by
  unfold ackNotice at h
  obtain ⟨m, hm, rfl⟩ := List.mem_map.1 h
  refine ⟨m, hm, ?_⟩
  split <;> simp

theorem State.Works.responseOutcome (hs : s.Works) (htab : s.TableLawful) (hun : s.unanswered = none) {k : Addressed}
    (ha : k = .assign → (s.member p).state = .admitting) (valid ack : Bool) : (s.responseOutcome k p valid ack).Works := by
  have polled : (if valid then s.clearMisses p else s.countMiss p).Works := by
    split
    · exact hs.clearMisses p
    · exact hs.countMiss htab hun
  unfold State.responseOutcome
  cases k with
  | poll => exact polled
  | answer => exact polled
  | notice d =>
    dsimp only
    split
    · have hc := hs.clearMisses p
      refine hc.changeNotices rfl rfl rfl hc.members hc.queue hc.names (fun set hset n hn ho => ?_) fun ns hns n hn => ?_
      · obtain ⟨m, hm, -, -, -, heq⟩ := mem_ackNotice hn
        have := heq ho
        subst this
        exact hc.publisher.openAre set hset n hm ho
      · obtain ⟨m, hm, -, -, hack, -⟩ := mem_ackNotice hn
        exact hack (hns m hm)
    · exact hs.countMiss htab hun
  | assign =>
    dsimp only
    split
    · exact hs.joinMember (ha rfl) hun
    · exact hs.countMiss htab hun

theorem State.Works.takeWord (hs : s.Works) (htab : s.TableLawful) (hdue : s.responseDue = true) (w : ChainWord) : (s.takeWord w).Works := by
  have hr : s.chain.frame.responded = false := by
    simp only [State.responseDue, Bool.and_eq_true, Bool.not_eq_true'] at hdue
    exact hdue.1.2
  have hun := State.unanswered_of_due hr
  have hres := hs.responded
  unfold State.takeWord
  dsimp only
  split
  · next target hc =>
    split
    · obtain ⟨h0, hv, hbelow⟩ := hs.members.called target (hun.trans hc)
      exact hres.takeJoin h0 hv hbelow s.responded_unanswered _
    · exact hres
  · next k p hc =>
    have hassign (hk : k = .assign) : (s.member p).state = .admitting := hs.members.assigned p (hun.trans (by rw [hc, hk]))
    split
    · refine (hres.intake p _).responseOutcome ?_ ?_ (fun hk => ?_) _ _
      · exact htab.congr (s := s) (State.intake_leases _ _ _).1
      · exact (State.unanswered_congr (State.intake_chain _ _ _)).trans s.responded_unanswered
      · rw [State.intake_state]
        exact hassign hk
    · exact hres.responseOutcome (htab.congr (s := s) rfl) s.responded_unanswered hassign _ _
  · exact hs

theorem State.Works.takeMiss (hs : s.Works) (htab : s.TableLawful) : (s.takeMiss p).Works :=
  hs.responded.countMiss (htab.congr (s := s) rfl) s.responded_unanswered

end

end Sys2Proof.Machine
end

section
/-! PROOFS. What the choice of the control message and the application of a set keep (R20, R86, R92, R93, R140 to R145). -/

namespace Sys2Proof.Machine

section
variable {s t : State} {p : Position}

/-! ## The choice of the control message -/

theorem State.send_unanswered {m m' : Message} {w : ChainWord} (h : (s.send m w).unanswered = some m') : m' = m := by
  unfold State.unanswered at h
  split at h
  · cases h
  · exact (Option.some.inj h).symm

theorem State.send_not_admits {m m' : Message} {w : ChainWord} (hm : ¬m.Admits) (h : (s.send m w).unanswered = some m') : ¬m'.Admits :=
  State.send_unanswered h ▸ hm

theorem Message.not_admits_idle : ¬Message.idle.Admits := by rintro (⟨q, h⟩ | ⟨q, h⟩) <;> cases h
theorem Message.not_admits_switch : ¬Message.switch.Admits := by rintro (⟨q, h⟩ | ⟨q, h⟩) <;> cases h
theorem Message.not_admits_addressed {k : Addressed} (hk : k ≠ .assign) (p : Position) : ¬(Message.addressed k p).Admits := by
  rintro (⟨q, h⟩ | ⟨q, h⟩)
  · cases h
  · exact hk (Message.addressed.inj h).1

/-- A message that neither calls for a JOIN nor assigns is sent. -/
theorem State.Works.send (hs : s.Works) {m : Message} (hm : ¬m.Admits) (w : ChainWord) : (s.send m w).Works :=
  hs.setFrame fun _ h ha => absurd ha (State.send_not_admits hm h)

/-- The rotation position of the set that is told moves on (R86). -/
theorem State.PublisherLawful.rotated (hs : s.PublisherLawful) {set : ChangeSet} (hst : s.publisher.stage = .notifying set) (r : Option Position)
    (hl : t.leases = s.leases) (hj : ∀ p, t.joined p = s.joined p) (hrun : t.chain.state = s.chain.state)
    (hp : t.publisher = { s.publisher with stage := .notifying { set with rotation := r } }) : t.PublisherLawful := by
  have hset : s.publisher.stage.set? = some set := by rw [hst]; rfl
  have hstage : t.publisher.stage = .notifying { set with rotation := r } := by rw [hp]
  refine ⟨fun _ => hrun.trans (hs.running (by simp [hst])), fun f h => ?_, fun set' h => ?_, fun set' h => ?_, fun set' h => ?_,
    fun set' h d hd => ?_, fun set' h n hn ho => ?_, fun set' h => ?_, fun set' f h => ?_⟩
  · cases hstage.symm.trans h
  all_goals rw [hstage] at h; cases h
  · rw [hp]
    exact hs.number set hset
  · exact hs.filled set hset
  · exact hs.ascending set hset
  · rw [hl]
    exact hs.agrees set hset d hd
  · rw [hj]
    exact hs.openAre set hset n hn ho
  · exact hs.telling set hst

theorem State.Works.sendNotice (hs : s.Works) {set : ChangeSet} (hst : s.publisher.stage = .notifying set) (n : Notice) :
    (s.sendNotice set n).Works := by
  have hu (m : Message) (h : (s.sendNotice set n).unanswered = some m) (ha : m.Admits) : s.unanswered = some m :=
    absurd ha (State.send_not_admits (Message.not_admits_addressed (by simp) _) h)
  refine ⟨hs.layout.congr rfl fun set' h => ?_, hs.members.congr (fun _ => rfl) hu fun _ h => h,
    hs.queue.congr (fun _ => rfl) (fun _ => Iff.rfl) rfl (.refl _), hs.names.of_members rfl (fun _ _ => id) fun _ _ h => .inr ⟨h, rfl⟩,
    hs.publisher.rotated hst _ rfl (fun _ => rfl) rfl rfl⟩
  rw [hst] at h
  cases h
  exact ⟨_, rfl, fun _ => id⟩

/-- A pending answer leaves with the delivery at the head of the list (R143). -/
theorem State.QueueLawful.sent (hs : s.QueueLawful) {rest : List Delivery} (hd : s.chain.delivery = .answer p :: rest)
    (hm : ∀ q, t.member q = if q = p then { s.member p with answer := none } else s.member q) (hq : t.engine.queue = s.engine.queue)
    (hrest : t.chain.delivery = rest) : t.QueueLawful := by
  have hn := hs.deliveries
  rw [hd, List.nodup_cons] at hn
  have hst (q : Position) : (t.member q).state = (s.member q).state := by
    rw [hm]
    split
    · next h => rw [h]
    · rfl
  have hans (q : Position) : (t.member q).answer ≠ none ↔ q ≠ p ∧ (s.member q).answer ≠ none := by
    rw [hm]
    by_cases h : q = p <;> simp [h]
  refine ⟨fun e he => (State.joined_congr (hst _)).trans (hs.joined e (hq ▸ he)), hq ▸ hs.once, fun q h => ?_, fun q => ?_, fun q => ?_, hrest ▸ hn.2⟩
  · rw [State.joined_congr (hst q), State.queued_congr (s := s) (by rw [hq])]
    exact hs.answers q ((hans q).1 h).2
  · rw [hans, ← hs.answerDue, hd, hrest, List.mem_cons, Delivery.answer.injEq]
    refine ⟨fun h => ⟨?_, .inr h⟩, fun h => h.2.resolve_left h.1⟩
    rintro rfl
    exact hn.1 h
  · rw [hst, ← hs.assignDue, hd, hrest, List.mem_cons, or_iff_right (by simp)]

theorem State.Works.sendDelivery (hs : s.Works) {d : Delivery} {rest : List Delivery} (hd : s.chain.delivery = d :: rest) :
    (s.sendDelivery d rest).Works := by
  cases d with
  | answer p =>
    have hp : p ≠ 0 := by
      have hdue := (hs.queue.answerDue p).1 (by rw [hd]; exact List.mem_cons_self)
      exact State.joined_ne_zero (hs.queue.answers p hdue).1
    have hm (q : Position) : (s.sendDelivery (.answer p) rest).member q = if q = p then { s.member p with answer := none } else s.member q := by
      change (s.setMember p _).member q = _
      rw [State.member_setMember]
      by_cases h : q = p <;> simp [h, hp]
    have hst (q : Position) : ((s.sendDelivery (.answer p) rest).member q).state = (s.member q).state := by
      rw [hm]
      split
      · next h => rw [h]
      · rfl
    have hid (q : Position) : ((s.sendDelivery (.answer p) rest).member q).identity = (s.member q).identity := by
      rw [hm]
      split
      · next h => rw [h]
      · rfl
    refine hs.of_members (by simp [State.sendDelivery]) (by simp [State.sendDelivery]) (by simp [State.sendDelivery]) (fun q hq => (State.joined_congr (hst q)).trans hq)
      (hs.members.congr hst (fun m h ha => ?_) fun q h => ?_) (hs.queue.sent hd hm (by simp [State.sendDelivery]) (by simp [State.sendDelivery]))
      (hs.names.of_members (by simp [State.sendDelivery]) (fun q _ h => (State.holds_congr (hst q)).2 h) fun q _ h => .inr ⟨(State.holds_congr (hst q)).1 h, hid q⟩)
    · exact absurd ha (State.send_not_admits (Message.not_admits_addressed (by simp) _) h)
    · rw [hd]
      exact List.mem_cons_of_mem _ (by simpa [State.sendDelivery] using h)
  | assign p =>
    have hperm : (rest ++ [Delivery.assign p]).Perm s.chain.delivery := by
      rw [hd]
      exact List.perm_append_singleton _ _
    have hadm := hs.members.waiting p (by rw [hd]; exact List.mem_cons_self)
    have hmessage (m : Message) (h : (s.sendDelivery (.assign p) rest).unanswered = some m) : m = .addressed .assign p :=
      State.send_unanswered h
    refine hs.of_members rfl rfl rfl (fun _ => id) ⟨hs.members.runs, fun q h => ?_, fun q h => ?_, fun q h => hs.members.waiting q (hperm.mem_iff.1 h)⟩
      (hs.queue.congr (fun _ => rfl) (fun _ => Iff.rfl) rfl hperm) (hs.names.of_members rfl (fun _ _ => id) fun _ _ h => .inr ⟨h, rfl⟩)
    · cases hmessage _ h
    · cases hmessage _ h
      exact hadm

theorem position_of_succ (h : p + 1 = 0) : p = 15 := by revert p; decide

theorem position_lt_succ (h : p ≠ 15) : p < p + 1 := by revert p; decide

/-- The target of an open call that is due is VACANT, right above the JOINED positions (R116). -/
theorem State.openCallDue_target {target : Position} (h : s.openCallDue = some target) :
    target ≠ 0 ∧ (s.member target).state = .vacant ∧ (target = 1 ∨ s.joined (target - 1) = true) := by
  unfold State.openCallDue at h
  split at h
  · next hc =>
    obtain ⟨-, -, hall, -⟩ := hc
    rw [List.all_eq_true] at hall
    have vacant {q : Position} (h0 : q ≠ 0) (hj : s.joined q ≠ true) : (s.member q).state = .vacant := by
      have h := hall q (mem_memberPositions.2 h0)
      rw [ne_eq, State.joined_iff] at hj
      cases hst : (s.member q).state <;> simp_all
    unfold State.joinTarget at h
    split at h
    · next hnone =>
      cases h
      rw [List.find?_eq_none] at hnone
      exact ⟨by decide, vacant (by decide) (hnone 1 (by decide)), .inl rfl⟩
    · next p hp =>
      split at h
      · cases h
      · next h15 =>
        cases h
        obtain ⟨hj, as, bs, hlist, habove⟩ := List.find?_eq_some_iff_append.1 hp
        have h0 : p + 1 ≠ 0 := fun h => h15 (position_of_succ h)
        have hmem : p + 1 ∈ as := by
          have hsorted : (as ++ p :: bs).Pairwise fun a b => b < a := hlist ▸ (by decide : memberPositions.reverse.Pairwise fun a b => b < a)
          have hin : p + 1 ∈ as ++ p :: bs := hlist ▸ List.mem_reverse.2 (mem_memberPositions.2 h0)
          have hlt : p < p + 1 := position_lt_succ h15
          rcases List.mem_append.1 hin with h | h
          · exact h
          · rcases List.mem_cons.1 h with h | h
            · exact absurd h (position_succ_ne p)
            · exact absurd ((List.pairwise_cons.1 (List.pairwise_append.1 hsorted).2.1).1 _ h) (not_lt.2 hlt.le)
        refine ⟨h0, vacant h0 (by simpa using habove _ hmem), .inr ?_⟩
        rw [add_sub_cancel_right]
        exact hj
  · cases h

theorem State.Works.chooses (hs : s.Works) (h : s.Chooses t) : t.Works := by
  cases h with
  | switch => exact hs.send Message.not_admits_switch _
  | notice set n hst => exact hs.sendNotice hst n
  | delivery d rest hd => exact hs.sendDelivery hd
  | openCall target hdue =>
    refine hs.of_members rfl rfl rfl (fun _ => id) ⟨hs.members.runs, fun q h => ?_, fun q h => ?_, hs.members.waiting⟩
      (hs.queue.congr (fun _ => rfl) (fun _ => Iff.rfl) rfl (.refl _)) (hs.names.of_members rfl (fun _ _ => id) fun _ _ h => .inr ⟨h, rfl⟩)
    · cases State.send_unanswered h
      exact State.openCallDue_target (s := s) hdue
    · cases State.send_unanswered h
  | poll q =>
    refine hs.congr rfl rfl rfl (fun _ => rfl) (fun _ => rfl) (fun _ => Iff.rfl) rfl (.refl _) fun m h ha => ?_
    exact absurd ha (State.send_not_admits (Message.not_admits_addressed (by simp) _) h)
  | idle => exact hs.send Message.not_admits_idle _

/-! ## The publisher with no set in flight -/

/-- With no set in flight the law asks for a running chain, and for AUTO mode while a window is open. -/
theorem State.PublisherLawful.of_no_set (hset : s.publisher.stage.set? = none)
    (hrun : s.publisher.stage ≠ .idle → s.chain.state = .running) (hauto : ∀ f, s.publisher.stage = .batching f → s.publisher.mode = .auto) :
    s.PublisherLawful := by
  have noSet {P : Prop} {set : ChangeSet} (h : s.publisher.stage.set? = some set) : P := by
    rw [hset] at h
    cases h
  exact ⟨hrun, hauto, fun _ => noSet, fun _ => noSet, fun _ => noSet, fun _ => noSet, fun _ => noSet,
    fun _ h => noSet (congrArg PublisherStage.set? h), fun _ _ h => noSet (congrArg PublisherStage.set? h)⟩

theorem State.PublisherLawful.of_idle (h : s.publisher.stage = .idle) : s.PublisherLawful :=
  .of_no_set (by rw [h]; rfl) (fun hne => absurd h hne) fun f hf => by cases h.symm.trans hf

/-- With a set in flight the law does not speak of mode and window. -/
theorem State.PublisherLawful.of_set (hs : s.PublisherLawful) {set : ChangeSet} (hset : s.publisher.stage.set? = some set)
    (hst : t.publisher.stage = s.publisher.stage) (he : t.publisher.epoch = s.publisher.epoch) (hl : t.leases = s.leases)
    (hm : t.members = s.members) (hc : t.chain = s.chain) : t.PublisherLawful := by
  have hj (q : Position) : t.joined q = s.joined q := by
    unfold State.joined State.member
    rw [hm]
  refine ⟨by rw [hst, hc]; exact hs.running, fun f h => ?_, by rw [hst, he]; exact hs.number, by rw [hst]; exact hs.filled,
    by rw [hst]; exact hs.ascending, by rw [hst, hl]; exact hs.agrees, by rw [hst]; simpa only [hj] using hs.openAre,
    by rw [hst]; exact hs.telling, by rw [hst]; exact hs.told⟩
  rw [← hst, h] at hset
  cases hset

/-- The laws when nothing but the publisher changes, and the set in flight stays. -/
theorem State.Works.publishing (hs : s.Works) (hl : t.leases = s.leases) (he : t.engine = s.engine) (hm : t.members = s.members)
    (hc : t.chain = s.chain) (hset : t.publisher.stage.set? = s.publisher.stage.set?) (hp : t.PublisherLawful) : t.Works := by
  have hmem (q : Position) : t.member q = s.member q := by unfold State.member; rw [hm]
  exact ⟨hs.layout.congr hl fun set h => ⟨set, hset.trans h, fun _ => id⟩,
    hs.members.congr (fun q => by rw [hmem]) (fun m h _ => State.unanswered_congr hc ▸ h) fun q h => hc ▸ h,
    hs.queue.congr (fun q => by rw [hmem]) (fun q => by rw [hmem]) (by rw [he]) (by rw [hc]),
    hs.names.of_members hl (fun q _ h => (State.holds_congr (by rw [hmem])).2 h) fun q _ h => .inr ⟨(State.holds_congr (by rw [hmem])).1 h, by rw [hmem]⟩, hp⟩

theorem State.Works.endWindow (hs : s.Works) (htab : s.TableLawful) {f : FrameNumber} (hst : s.publisher.stage = .batching f) :
    s.endWindow.Works := by
  have hset : s.publisher.stage.set? = none := by rw [hst]; rfl
  unfold State.endWindow
  split
  · next hany => exact hs.sealStaged htab (hs.publisher.running (by simp [hst])) hset hany
  · exact hs.publishing (t := s.setStage .idle) rfl rfl rfl rfl hset.symm (.of_idle rfl)

theorem State.Works.setPublishing (hs : s.Works) (m : PublishingMode) (w : Byte) : (s.setPublishing m w).Works := by
  rw [State.setPublishing_eq]
  have hp := hs.publisher
  unfold State.stageUnder
  cases hst : s.publisher.stage with
  | idle =>
    dsimp only
    split
    · next h => exact hs.publishing rfl rfl rfl rfl (by simp [hst, PublisherStage.set?]) (.of_no_set rfl (fun _ => h.2.2) fun _ _ => h.1)
    · exact hs.publishing rfl rfl rfl rfl (by rw [hst]) (.of_idle rfl)
  | batching f =>
    dsimp only
    split
    · exact hs.publishing rfl rfl rfl rfl (by simp [hst, PublisherStage.set?]) (.of_idle rfl)
    · next h =>
      refine hs.publishing rfl rfl rfl rfl (by rw [hst]) (.of_no_set rfl (fun _ => hp.running (by simp [hst])) fun _ _ => ?_)
      cases m
      · rfl
      · exact absurd rfl h
  | notifying set => exact hs.publishing rfl rfl rfl rfl (by rw [hst]) (hp.of_set (by rw [hst]; rfl) hst.symm rfl rfl rfl rfl)
  | switching set f => exact hs.publishing rfl rfl rfl rfl (by rw [hst]) (hp.of_set (by rw [hst]; rfl) hst.symm rfl rfl rfl rfl)

end

end Sys2Proof.Machine
end

section
/-! PROOFS. What the application of a set, the frame start, the slots, and the start and the stop of the chain keep
(R20 to R22, R66, R92, R93, R135, R138, R150). -/

namespace Sys2Proof.Machine

section
variable {s t : State} {i : LeaseIndex} {e : Entry} {l l' : Lease} {set : ChangeSet}

/-! ## The application of a set -/

theorem applyDelta_lease (h : (applyDelta e).entry.lease = some l') : ∃ l, e.lease = some l
    ∧ ((∃ c, l.sealed = some (.config c) ∧ l' = { l with active := c, sealed := none }) ∨ (l.sealed = none ∧ l' = l)) := by
  unfold applyDelta at h
  cases hl : e.lease with
  | none => simp [hl, EntryEvent.unchanged] at h
  | some l =>
    simp only [hl] at h
    cases hs : l.sealed with
    | none => exact ⟨l, rfl, .inr ⟨hs, by simpa [hs, EntryEvent.unchanged, hl, eq_comm] using h⟩⟩
    | some x =>
      cases x with
      | config c => exact ⟨l, rfl, .inl ⟨c, hs, by simpa [hs, Entry.put, eq_comm] using h⟩⟩
      | retirement => simp [hs, Entry.free, Entry.freed] at h

theorem settleEntry_lease (h : (settleEntry e).entry.lease = some l') : ∃ l, e.lease = some l
    ∧ (l' = l ∨ ∃ c, l.staged = some c ∧ l' = { l with active := c, staged := none }) := by
  have unchanged {l : Lease} (hl : e.lease = some l) (h : (EntryEvent.unchanged e).entry.lease = some l') : l' = l :=
    Option.some.inj (h.symm.trans hl)
  unfold settleEntry at h
  split at h
  · next l hl =>
    refine ⟨l, hl, ?_⟩
    split at h
    · split at h
      · cases h
      · exact .inl (unchanged hl h)
    · exact .inl (unchanged hl h)
    · split at h
      · next c hc =>
        split at h
        · exact .inr ⟨c, hc, (Option.some.inj h).symm⟩
        · exact .inl (unchanged hl h)
      · exact .inl (unchanged hl h)
  · next hn => exact absurd h (by simp [EntryEvent.unchanged, hn])

/-- A lease that an application leaves has nothing in flight, and its configurations claimed their bits before (R20, R28). -/
theorem applyEntry_lease (hnamed : set.namesIndex i = false → ∀ l, e.lease = some l → l.sealed = none)
    (h : (applyEntry set i e).entry.lease = some l') :
    ∃ l, e.lease = some l ∧ l.SameAs l' ∧ l'.sealed = none ∧ ∀ c ∈ l'.configurations, c ∈ l.claiming := by
  obtain ⟨m, hm, hml⟩ := settleEntry_lease h
  have hmid : ∃ l, e.lease = some l ∧ l.SameAs m ∧ m.sealed = none ∧ ∀ c ∈ m.configurations, c ∈ l.claiming := by
    by_cases hi : set.namesIndex i = true
    · simp only [hi, if_true] at hm
      obtain ⟨l, hl, ⟨c, hs, rfl⟩ | ⟨hs, rfl⟩⟩ := applyDelta_lease hm
      · refine ⟨l, hl, ⟨rfl, rfl, rfl, rfl⟩, rfl, fun d hd => Lease.mem_claiming.2 ?_⟩
        rcases Lease.mem_configurations.1 hd with rfl | hd | hd
        · exact .inr (.inl hs)
        · cases hd
        · exact .inr (.inr hd)
      · refine ⟨m, hl, ⟨rfl, rfl, rfl, rfl⟩, hs, fun d hd => Lease.mem_claiming.2 ?_⟩
        rcases Lease.mem_configurations.1 hd with rfl | hd | hd
        · exact .inl ⟨hs, rfl⟩
        · exact .inr (.inl hd)
        · exact .inr (.inr hd)
    · simp only [hi] at hm
      have hs := hnamed (Bool.eq_false_iff.2 hi) m hm
      refine ⟨m, hm, ⟨rfl, rfl, rfl, rfl⟩, hs, fun d hd => Lease.mem_claiming.2 ?_⟩
      rcases Lease.mem_configurations.1 hd with rfl | hd | hd
      · exact .inl ⟨hs, rfl⟩
      · exact .inr (.inl hd)
      · exact .inr (.inr hd)
  obtain ⟨l, hl, hsame, hs, hc⟩ := hmid
  rcases hml with rfl | ⟨c, hst, rfl⟩
  · exact ⟨l, hl, hsame, hs, hc⟩
  · refine ⟨l, hl, hsame, hs, fun d hd => hc d (Lease.mem_configurations.2 ?_)⟩
    rcases Lease.mem_configurations.1 hd with rfl | hd | hd
    · exact .inr (.inr hst)
    · exact absurd (hs.symm.trans hd) (by simp)
    · cases hd

/-- What the application of the set in flight makes of the leases: nothing is in flight, and no bit is claimed anew. -/
theorem State.applied_lease (hs : s.LayoutLawful) (hset : s.publisher.stage.set? = some set)
    (h : (s.onEveryEntry (applyEntry set)).lease? i = some l') : ∃ l, s.lease? i = some l ∧ l.SameAs l' ∧ l'.sealed = none
      ∧ (∀ a ∈ l'.claims, a ∈ l.claims) ∧ (∀ a, l'.active.run? l'.direction l'.source = some a → a ∈ l.claims)
      ∧ ∀ p, l'.listensAt p = true → l.listensAt p = true := by
  rw [State.lease?, State.onEveryEntry_entry] at h
  obtain ⟨l, hl, hsame, hsealed, hc⟩ := applyEntry_lease (fun hi l hl => by
    by_contra hne
    obtain ⟨set', hset', hi'⟩ := hs.named i l hl hne
    cases hset.symm.trans hset'
    rw [hi] at hi'
    cases hi') h
  have hsame' := hsame
  obtain ⟨-, -, hsrc, hdir⟩ := hsame'
  have run {c : Configuration} (hc' : c ∈ l'.configurations) {a : Run} (ha : c.run? l'.direction l'.source = some a) : a ∈ l.claims :=
    Lease.mem_claims.2 ⟨c, hc c hc', by rw [← hdir, ← hsrc]; exact ha⟩
  refine ⟨l, hl, hsame, hsealed, fun a ha => ?_, fun a ha => run (Lease.mem_configurations.2 (.inl rfl)) ha, fun p hp => ?_⟩
  · obtain ⟨c, hcl, ha⟩ := Lease.mem_claims.1 ha
    refine run (Lease.mem_configurations.2 ?_) ha
    rcases Lease.mem_claiming.1 hcl with ⟨-, h⟩ | h | h
    · exact .inl h
    · exact .inr (.inl h)
    · exact .inr (.inr h)
  · rw [Lease.listensAt_iff] at hp ⊢
    obtain ⟨c, hcm, hp⟩ := hp
    refine ⟨c, Lease.mem_configurations.2 ?_, hp⟩
    rcases Lease.mem_claiming.1 (hc c hcm) with ⟨-, h⟩ | h | h
    · exact .inl h
    · exact .inr (.inl h)
    · exact .inr (.inr h)

theorem State.nextStage_no_set (s : State) : s.nextStage.set? = none := by
  unfold State.nextStage
  split <;> rfl

theorem State.nextStage_auto {f : FrameNumber} (h : s.nextStage = .batching f) : s.publisher.mode = .auto := by
  unfold State.nextStage at h
  split at h
  · next hc => exact hc.1
  · cases h

/-- The application of the set in flight keeps the laws (R92, R93). -/
theorem State.Works.applySet (hs : s.Works) (happ : s.AppliesNow set) : (s.applySet set).Works := by
  have hset : s.publisher.stage.set? = some set := by rw [happ.2]; rfl
  have hrun : s.chain.state = .running := hs.publisher.running (by simp [happ.2])
  have ht := s.onEveryEntry_onTable (applyEntry set)
  have hmode : (s.onEveryEntry (applyEntry set)).publisher.mode = s.publisher.mode := by
    rcases ht.notes with h | ⟨f, -, -, -, h⟩ <;> rw [h]
  have held {i : LeaseIndex} {l' : Lease} (h : (s.onEveryEntry (applyEntry set)).lease? i = some l') :=
    State.applied_lease hs.layout hset h
  unfold State.applySet
  dsimp only
  generalize s.onEveryEntry (applyEntry set) = t at ht hmode held ⊢
  generalize hu : ({ t with publisher := { t.publisher with epoch := t.publisher.epoch + 1, stage := t.nextStage } } : State) = u
  have hlease (j : LeaseIndex) : u.lease? j = t.lease? j := by rw [← hu]; rfl
  have hmember (p : Position) : u.member p = s.member p := by rw [← hu]; exact ht.member p
  have hchain : u.chain = s.chain := by rw [← hu]; exact ht.chain
  have hstage : u.publisher.stage = t.nextStage := by rw [← hu]
  have hworks : u.Works := by
    refine ⟨⟨fun i j l' m' hij hi hj hd a ha b hb => ?_, fun i j l' m' hij hi hj hd a b ha hb => ?_, fun i l' hi hne => ?_⟩,
      hs.members.congr (fun p => by rw [hmember]) (fun m h _ => State.unanswered_congr hchain ▸ h) (fun p h => hchain ▸ h),
      hs.queue.congr (fun p => by rw [hmember]) (fun p => by rw [hmember]) (by rw [← hu, ← ht.engine]) (by rw [hchain]),
      hs.names.of_sub (fun i l' hi => ?_) (fun p _ h => (State.holds_congr (by rw [hmember])).2 h)
        (fun p _ h => .inr ⟨(State.holds_congr (by rw [hmember])).1 h, State.limits_congr (by rw [hmember])⟩),
      .of_no_set (by rw [hstage, State.nextStage_no_set]) (fun _ => by rw [hchain]; exact hrun) fun f hf => ?_⟩
    · obtain ⟨l, hl, ⟨-, -, -, hdl⟩, -, hcl, -⟩ := held (hlease i ▸ hi)
      obtain ⟨m, hm, ⟨-, -, -, hdm⟩, -, hcm, -⟩ := held (hlease j ▸ hj)
      exact hs.layout.claims i j l m hij hl hm (by rw [← hdl, ← hdm, hd]) a (hcl a ha) b (hcm b hb)
    · obtain ⟨l, hl, ⟨-, -, -, hdl⟩, -, -, hal, -⟩ := held (hlease i ▸ hi)
      obtain ⟨m, hm, ⟨-, -, -, hdm⟩, -, -, ham, -⟩ := held (hlease j ▸ hj)
      exact hs.layout.claims i j l m hij hl hm (by rw [← hdl, ← hdm, hd]) a (hal a ha) b (ham b hb)
    · obtain ⟨-, -, -, hsealed, -⟩ := held (hlease i ▸ hi)
      exact absurd hsealed hne
    · obtain ⟨l, hl, ⟨-, -, hsrc, -⟩, -, -, -, hlisten⟩ := held (hlease i ▸ hi)
      exact ⟨l, hl, hsrc, hlisten⟩
    · rw [← hu]
      exact State.nextStage_auto (hstage ▸ hf)
  have hrel := hworks.releaseLost
  generalize u.releaseLost = v at hrel ⊢
  exact hrel.congr rfl rfl rfl (fun _ => rfl) (fun _ => rfl) (fun _ => Iff.rfl) rfl (.refl _) fun _ h _ => h

/-! ## The frame -/

theorem State.Works.openFrame (hs : s.Works) : s.openFrame.Works :=
  hs.congr rfl rfl rfl (fun _ => rfl) (fun _ => rfl) (fun _ => Iff.rfl) rfl (.refl _) fun m h _ => by
    have hnone : s.openFrame.unanswered = none := rfl
    cases hnone.symm.trans h

theorem State.Works.takeSlot (hs : s.Works) (htab : s.TableLawful) (hl : s.lease? i = some l) (k : Fin 8) (bits : BitVec 34) :
    (s.takeSlot i l k bits).Works := by
  unfold State.takeSlot
  dsimp only
  generalize hf : ({ s.chain.frame with slotsRead := (i, k) :: s.chain.frame.slotsRead } : FrameProgress) = f
  have hframe : (s.setFrame f).Works := hs.setFrame fun m h _ => by
    rw [← hf] at h
    exact h
  have hg : ((s.setFrame f).gatherSlot l k.val bits).Works := by
    unfold State.gatherSlot
    split
    · exact hframe.congr rfl rfl rfl (fun _ => rfl) (fun _ => rfl) (fun _ => Iff.rfl) rfl (.refl _) fun _ h _ => h
    · exact hframe
  have hleases : ((s.setFrame f).gatherSlot l k.val bits).leases = s.leases := (State.gatherSlot_leases _ l k.val bits).1
  refine hg.calm (htab.congr hleases) (State.onEntry_onTable _ _ _) (.onEntry ?_)
  rw [hleases]
  exact Entry.takes_slot hl _ _

/-! ## The start and the stop of the chain -/

/-- The start of a stopped chain keeps the laws: nothing waited, and nothing was in flight (R66). -/
theorem State.Works.startChain (hs : s.Works) (hq : s.Quiet) (rate : Rate) (limit lead : Nat) : (s.startChain rate limit lead).Works where
  layout := hs.layout.congr rfl fun set h => ⟨set, h, fun _ => id⟩
  members := hs.members.congr (fun _ => rfl) (fun m h _ => by
    have hnone : (s.startChain rate limit lead).unanswered = none := rfl
    cases hnone.symm.trans h) fun p h => (by cases h)
  queue := hs.queue.congr (fun _ => rfl) (fun _ => Iff.rfl) rfl (by
    rw [hq.control.1]
    rfl)
  names := hs.names.of_members rfl (fun _ _ => id) fun _ _ h => .inr ⟨h, rfl⟩
  publisher := .of_idle hq.publisher

theorem stopEntry_lease (h : (stopEntry e).entry.lease = some l') : ∃ l, e.lease = some l ∧ l.term = 0 ∧ l.source = 0 ∧ l.mark = none
    ∧ l' = { l with active := l.active.unplaced, sealed := none, staged := none } := by
  unfold stopEntry at h
  split at h
  · next l hl =>
    split at h
    · next hc => exact ⟨l, hl, hc.1, hc.2.1, hc.2.2, (Option.some.inj h).symm⟩
    · cases h
  · next hn => exact absurd h (by simp [EntryEvent.unchanged, hn])

theorem State.stopChain_lease (h : s.stopChain.lease? i = some l') : ∃ l, s.lease? i = some l ∧ l.term = 0 ∧ l.source = 0 ∧ l.mark = none
    ∧ l' = { l with active := l.active.unplaced, sealed := none, staged := none } := by
  have h' : (stopEntry s.leases[i]).entry.lease = some l' := by
    rw [← h]
    unfold State.stopChain State.lease?
    exact congrArg Entry.lease (State.onEveryEntry_entry s (fun _ e => stopEntry e) i).symm
  exact stopEntry_lease h'

theorem State.stopChain_member (s : State) (p : Position) : s.stopChain.member p = (s.member p).emptied := by
  unfold State.stopChain
  by_cases h0 : p = 0
  · simp [State.member, h0, Member.emptied, Member.vacant]
  · simp [State.member, h0]

theorem State.stopChain_quiet (htab : s.TableLawful) : s.stopChain.Quiet where
  publisher := rfl
  queue := rfl
  members p := by
    rw [State.stopChain_member]
    exact ⟨rfl, rfl, rfl, rfl⟩
  limits := ⟨rfl, rfl⟩
  control := ⟨rfl, rfl, rfl⟩
  frame := rfl
  port := rfl
  leases i l' h := by
    obtain ⟨l, hl, -, hsrc, hm, rfl⟩ := State.stopChain_lease h
    refine ⟨hsrc, ?_, rfl, rfl, rfl, rfl, hm⟩
    cases hd : l.direction with
    | down => rfl
    | up => exact absurd hsrc ((htab.leases i l hl).source hd)

/-- A stopped chain keeps the laws: no member is there, and nothing is placed, waits or is in flight (R22, R98, R113, R135). -/
theorem State.Quiet.works (hq : s.Quiet) : s.Works := by
  have vacant (p : Position) : (s.member p).state = .vacant := (hq.members p).1
  have noJoined (p : Position) : s.joined p = false := by simp [State.joined, vacant]
  have hun : s.unanswered = none := by simp [State.unanswered, hq.frame, FrameProgress.none]
  have noClaims {i : LeaseIndex} {l : Lease} (h : s.lease? i = some l) : l.claims = [] := by
    obtain ⟨-, -, hlis, -, hsealed, hstaged, -⟩ := hq.leases i l h
    refine List.eq_nil_iff_forall_not_mem.2 fun a ha => ?_
    obtain ⟨c, hc, ha⟩ := Lease.mem_claims.1 ha
    rcases Lease.mem_claiming.1 hc with ⟨-, rfl⟩ | h | h
    · exact (Configuration.run?_some.1 ha).1 hlis
    · exact absurd (hsealed.symm.trans h) (by simp)
    · exact absurd (hstaged.symm.trans h) (by simp)
  have noListener {i : LeaseIndex} {l : Lease} (h : s.lease? i = some l) (p : Position) : l.listensAt p = false := by
    obtain ⟨-, -, hlis, -, hsealed, hstaged, -⟩ := hq.leases i l h
    rw [Bool.eq_false_iff, ne_eq, Lease.listensAt_iff]
    rintro ⟨c, hc, hp⟩
    rcases Lease.mem_configurations.1 hc with rfl | h | h
    · rw [hlis] at hp
      simp [hasListener] at hp
    · exact absurd (hsealed.symm.trans h) (by simp)
    · exact absurd (hstaged.symm.trans h) (by simp)
  have unheld {p : Position} (h0 : p ≠ 0) : ¬s.Holds p := State.not_holds h0 (.inl (vacant p))
  refine ⟨⟨fun i j l m _ hi _ _ a ha => ?_, fun i j l m _ hi _ _ a b ha => ?_, fun i l hi hne => ?_⟩,
    ⟨fun p _ _ => ?_, fun q h => ?_, fun q h => ?_, fun q h => ?_⟩,
    ⟨fun e he => ?_, ?_, fun p h => ?_, fun p => ?_, fun p => ?_, ?_⟩,
    ⟨fun i l hi => .inl (hq.leases i l hi).1, fun i l p hi hp => ?_, fun p h0 h => absurd h (unheld h0), fun p h0 h => absurd h (unheld h0)⟩,
    .of_idle hq.publisher⟩
  · rw [noClaims hi] at ha
    cases ha
  · exact absurd (hq.leases i l hi).2.2.1 (Configuration.run?_some.1 ha).1
  · exact absurd (hq.leases i l hi).2.2.2.2.1 hne
  · rw [vacant, vacant]
    rfl
  · cases hun.symm.trans h
  · cases hun.symm.trans h
  · rw [hq.control.1] at h
    cases h
  · rw [hq.queue] at he
    cases he
  · rw [hq.queue]
    exact List.nodup_nil
  · exact absurd (hq.members p).2.2.2 h
  · simp [hq.control.1, (hq.members p).2.2.2]
  · simp [hq.control.1, vacant]
  · rw [hq.control.1]
    exact List.nodup_nil
  · rw [noListener hi] at hp
    cases hp

end

end Sys2Proof.Machine
end

section
/-! PROOFS. The queue of commands, device reset and the Host Port (R173 to R182). -/

namespace Sys2Proof.Machine

section
variable {s t : State}

/-! ## The queue of commands -/

/-- Settles O1: a step is defined by the front of the queue. -/
theorem stepTakesTheFrontCommand : Obligations.StepTakesTheFrontCommand := fun _ _ _ => ⟨rfl, rfl⟩

/-! ## Select periods -/

theorem State.deaf_eq_false (hr : s.inReset = false) (hs : s.hostPort.select ≠ .ignored) : s.deaf = false := by
  simp [State.deaf, hr, hs]

theorem State.deaf_iff : s.deaf = true ↔ s.inReset = true ∨ s.hostPort.select = .ignored := by simp [State.deaf]

/-- The select period of a transaction, the one that is open or a new one (R173). -/
theorem State.openSelect_awake (hr : s.inReset = false) :
    s.openSelect = s.setPort { s.hostPort with select := .low, hsdo := s.opening } := by
  unfold State.openSelect State.opening
  split
  · next h =>
    rw [if_pos h]
    simp [State.setPort, ← h]
  · next h =>
    rw [if_neg h, State.fallSelect_of_awake hr]

theorem State.openSelect_statusByte (hr : s.inReset = false) : s.openSelect.statusByte = s.statusByte := by
  rw [State.openSelect_awake hr, State.statusByte_setPort]

theorem namesTransaction_eq_false {b : Byte} (h1 : b ≠ 0x1D) (h2 : b ≠ 0x2E) (h3 : b ≠ 0x3B) : namesTransaction b = false := by
  unfold namesTransaction Config.selRequestWrite Config.selAnswerRead Config.selStatusRead
  rw [beq_false_of_ne h1, beq_false_of_ne h2, beq_false_of_ne h3]
  rfl

/-- Settles O4: a port in reset, or in a period to be ignored, is deaf, and a transaction only ends its period. -/
theorem deviceResetTakesEveryBlock : Obligations.DeviceResetTakesEveryBlock := by
  unfold Obligations.DeviceResetTakesEveryBlock
  refine fun s => ⟨rfl, rfl, fun h => ?_, fun h => ?_⟩
  · have hdeaf := State.deaf_iff.2 h
    refine ⟨fun frame stray => ?_, fun bits => ?_, ?_, ?_, fun b h1 h2 h3 => ?_⟩
    · change execRequestWrite frame stray s = _
      rw [execRequestWrite, if_pos hdeaf]
      rfl
    · change execAnswerRead (.finish bits) s = _
      simp only [execAnswerRead, if_pos hdeaf]
      rfl
    · change execAnswerRead .selector s = _
      simp only [execAnswerRead, if_pos hdeaf]
      rfl
    · change execStatusRead s = _
      rw [execStatusRead, if_pos hdeaf]
      rfl
    · change execUnknownSelector b s = _
      rw [execUnknownSelector, if_neg (by simp [namesTransaction_eq_false h1 h2 h3]), if_pos hdeaf]
      rfl
  · rw [exec_selectPeriodStart, State.fallSelect, if_pos h]
    rfl

/-! ## The request write -/

/-- A whole frame is good, and holds its request (R174, R175). -/
theorem frameGood_withCrc {command tag : Byte} {params : List Byte} (h : params.length ≤ 12) :
    frameGood (withCrc (command :: tag :: params)) 0 = true ∧ requestOf (withCrc (command :: tag :: params)) = ⟨command, tag, params⟩ := by
  refine ⟨?_, ?_⟩
  · simp only [frameGood, withCrc, List.dropLast_concat, List.getLastD_concat, Bool.and_eq_true, decide_eq_true_eq, beq_self_eq_true,
      List.length_append, List.length_cons, List.length_nil, true_and, and_true]
    omega
  · simp [requestOf, withCrc]

/-- A frame with a stray bit, of a wrong length, or with a wrong last byte is not good (R174). -/
theorem frameGood_eq_false {frame : List Byte} {stray : Fin 8}
    (h : stray ≠ 0 ∨ frame.length < 3 ∨ 15 < frame.length ∨ frame.getLast? ≠ some (crc8 frame.dropLast)) : frameGood frame stray = false := by
  rw [Bool.eq_false_iff]
  intro hg
  simp only [frameGood, Bool.and_eq_true, beq_iff_eq, decide_eq_true_eq] at hg
  obtain ⟨⟨⟨hstray, h3⟩, h15⟩, hcrc⟩ := hg
  have hne : frame ≠ [] := by
    rintro rfl
    simp at h3
  have hlast : frame.getLast? = some (crc8 frame.dropLast) := by
    rw [hcrc, List.getLastD_eq_getLast?, List.getLast?_eq_some_getLast hne]
    rfl
  rcases h with h | h | h | h
  · exact h hstray
  · omega
  · omega
  · exact h hlast

theorem exec_requestWrite_awake (hr : s.inReset = false) (hs : s.hostPort.select ≠ .ignored) (frame : List Byte) (stray : Fin 8) :
    exec (.requestWrite frame stray) s = .next (s.setPort { HostPort.offer { s.hostPort with select := .low, hsdo := s.opening }
      frame stray with select := .high }) := by
  change execRequestWrite frame stray s = _
  rw [execRequestWrite, if_neg (by simp [State.deaf_eq_false hr hs]), State.openSelect_awake hr]
  rfl

/-- Settles O5: a good frame is offered to the slot, any other sets the flag. -/
theorem requestWriteIsAcceptedOrRefused : Obligations.RequestWriteIsAcceptedOrRefused := by
  unfold Obligations.RequestWriteIsAcceptedOrRefused
  refine fun s frame stray hr hs => ⟨fun command tag params hframe hlen hstray => ?_, fun hbad => ?_⟩
  · subst hframe hstray
    obtain ⟨hgood, hreq⟩ := frameGood_withCrc (command := command) (tag := tag) hlen
    rw [exec_requestWrite_awake hr hs, HostPort.offer, if_pos hgood, hreq]
    refine ⟨fun he => ?_, fun hne => ?_⟩
    · simp only [he]
      rfl
    · cases hslot : s.hostPort.slot with
      | empty => exact absurd hslot hne
      | waiting | answered => rfl
  · rw [exec_requestWrite_awake hr hs, HostPort.offer, if_neg (by simp [frameGood_eq_false hbad])]
    rfl

/-! ## The answer read and the status read -/

theorem exec_answerRead_selector_awake (hr : s.inReset = false) (hs : s.hostPort.select ≠ .ignored) :
    exec (.answerRead .selector) s
      = .next (s.setPort (HostPort.beginRead { s.hostPort with select := .low, hsdo := s.opening })) := by
  change execAnswerRead .selector s = _
  simp only [execAnswerRead, State.deaf_eq_false hr hs, Bool.false_eq_true, if_false, State.startRead, State.openSelect_awake hr]
  rfl

theorem exec_answerRead_finish_awake (hr : s.inReset = false) (hs : s.hostPort.select ≠ .ignored) (bits : Nat) :
    exec (.answerRead (.finish bits)) s = .next (if s.hostPort.select.isAnswering = true then s.setPort (s.hostPort.endRead bits)
      else s.setPort ((HostPort.beginRead { s.hostPort with select := .low, hsdo := s.opening }).endRead bits)) := by
  change execAnswerRead (.finish bits) s = _
  simp only [execAnswerRead, State.deaf_eq_false hr hs, Bool.false_eq_true, if_false, State.startRead, State.openSelect_awake hr]
  split <;> rfl

/-- Once the selector is decoded an answer read is in progress (R178). -/
theorem HostPort.beginRead_answering (p : HostPort) : p.beginRead.select.isAnswering = true := by
  unfold HostPort.beginRead
  split <;> rfl

/-- Settles O6: the selector fixes frame and source, and the end releases a whole answer of the buffer. -/
theorem answerReadReleasesAWholeAnswer : Obligations.AnswerReadReleasesAWholeAnswer := by
  unfold Obligations.AnswerReadReleasesAWholeAnswer
  refine fun s bits hr => ⟨fun hs => ⟨fun r a hslot => ?_, fun hslot => ?_⟩, fun frame fromBuffer hs => ?_, fun hs t ht => ?_⟩
  · rw [exec_answerRead_selector_awake hr hs, HostPort.beginRead]
    simp only [hslot]
    rfl
  · rw [exec_answerRead_selector_awake hr hs, HostPort.beginRead]
    cases h : s.hostPort.slot with
    | empty | waiting => simp [State.setPort, h, noneFrame]
    | answered r a => exact absurd h (hslot r a)
  · rw [exec_answerRead_finish_awake hr (by simp [hs]), hs,
      if_pos (show (Select.answering frame fromBuffer).isAnswering = true from rfl), HostPort.endRead]
    simp only [hs]
    cases fromBuffer with
    | false => rfl
    | true =>
      by_cases hb : 8 * frame.length ≤ bits
      · simp [hb, State.setPort]
      · simp [hb, State.setPort]
  · have hne : s.hostPort.select ≠ .ignored := by rcases hs with hs | hs <;> simp [hs]
    have hns : ¬s.hostPort.select.isAnswering = true := by rcases hs with hs | hs <;> simp [hs, Select.isAnswering]
    rw [exec_answerRead_selector_awake hr hne] at ht
    obtain rfl := Host.Outcome.next.inj ht
    have hans := HostPort.beginRead_answering { s.hostPort with select := .low, hsdo := s.opening }
    rw [exec_answerRead_finish_awake hr hne, if_neg hns, exec_answerRead_finish_awake (by simpa using hr), State.setPort_hostPort,
      if_pos hans]
    · rfl
    · rw [State.setPort_hostPort]
      intro h
      rw [h] at hans
      cases hans

/-- Settles O7: only the end of a status read clears the flags. -/
theorem statusReadClearsTheStickyFlags : Obligations.StatusReadClearsTheStickyFlags := by
  unfold Obligations.StatusReadClearsTheStickyFlags
  refine fun s hr => ⟨fun hs => ⟨?_, fun b h1 h2 h3 => ?_⟩, ?_⟩
  · change execStatusRead s = _
    rw [execStatusRead, if_neg (by simp [State.deaf_eq_false hr hs])]
    dsimp only
    rw [State.openSelect_statusByte hr, State.openSelect_awake hr]
    rfl
  · change execUnknownSelector b s = _
    rw [execUnknownSelector, if_neg (by simp [namesTransaction_eq_false h1 h2 h3]), if_neg (by simp [State.deaf_eq_false hr hs]),
      State.openSelect_awake hr]
    rfl
  · rw [exec_selectPeriodStart, State.fallSelect_of_awake hr]
    rfl

/-! ## The request slot and the sticky flags (R176, R180) -/

/-- What a transaction does to the slot and the sticky flags, and that an answer read holds to the buffer. -/
structure HostPort.Transacts (c : Instr) (p q : HostPort) : Prop where
  law  : ∀ frame, q.select = .answering frame true → ∃ r, q.slot = .answered r frame
  slot : q.slot = p.slot
    ∨ (∃ frame stray r, c = .requestWrite frame stray ∧ p.slot = .empty ∧ q.slot = .waiting r)
    ∨ ∃ bits r a, c = .answerRead (.finish bits) ∧ p.slot = .answered r a ∧ q.slot = .empty
  sticky : c ≠ .statusRead → (p.checkError = true → q.checkError = true) ∧ (p.slotFull = true → q.slotFull = true)

/-- A port that ends its period with slot and flags as they were. -/
theorem HostPort.Transacts.calm {c : Instr} {p q : HostPort} (hs : ∀ frame, q.select ≠ .answering frame true)
    (hslot : q.slot = p.slot) (hc : q.checkError = p.checkError) (hf : q.slotFull = p.slotFull) : p.Transacts c q :=
  ⟨fun frame h => absurd h (hs frame), .inl hslot, fun _ => ⟨fun h => hc.trans h, fun h => hf.trans h⟩⟩

theorem State.openSelect_port (s : State) : s.openSelect.hostPort.slot = s.hostPort.slot
    ∧ s.openSelect.hostPort.checkError = s.hostPort.checkError ∧ s.openSelect.hostPort.slotFull = s.hostPort.slotFull := by
  unfold State.openSelect State.fallSelect
  split
  · exact ⟨rfl, rfl, rfl⟩
  · split <;> exact ⟨rfl, rfl, rfl⟩

theorem HostPort.offer_slot (p : HostPort) (frame : List Byte) (stray : Fin 8) :
    (p.offer frame stray).slot = p.slot ∨ (p.slot = .empty ∧ ∃ r, (p.offer frame stray).slot = .waiting r) := by
  unfold HostPort.offer
  split
  · split
    · next h => exact .inr ⟨h, _, rfl⟩
    · exact .inl rfl
  · exact .inl rfl

theorem HostPort.offer_sticky (p : HostPort) (frame : List Byte) (stray : Fin 8) :
    (p.checkError = true → (p.offer frame stray).checkError = true) ∧ (p.slotFull = true → (p.offer frame stray).slotFull = true) := by
  unfold HostPort.offer
  split
  · split <;> simp
  · simp

theorem HostPort.beginRead_port (p : HostPort) : p.beginRead.slot = p.slot ∧ p.beginRead.checkError = p.checkError
    ∧ p.beginRead.slotFull = p.slotFull ∧ ∀ frame, p.beginRead.select = .answering frame true → ∃ r, p.beginRead.slot = .answered r frame := by
  unfold HostPort.beginRead
  split
  · next r a h =>
    refine ⟨rfl, rfl, rfl, fun frame hf => ?_⟩
    cases hf
    exact ⟨r, h⟩
  · exact ⟨rfl, rfl, rfl, fun frame hf => by cases hf⟩

theorem HostPort.endRead_port (p : HostPort) (bits : Nat) : (p.endRead bits).select = .high
    ∧ (p.endRead bits).checkError = p.checkError ∧ (p.endRead bits).slotFull = p.slotFull
    ∧ ((p.endRead bits).slot = p.slot ∨ ((∃ frame, p.select = .answering frame true) ∧ (p.endRead bits).slot = .empty)) := by
  unfold HostPort.endRead
  split
  · next frame h =>
    split
    · exact ⟨rfl, rfl, rfl, .inr ⟨⟨frame, h⟩, rfl⟩⟩
    · exact ⟨rfl, rfl, rfl, .inl rfl⟩
  · exact ⟨rfl, rfl, rfl, .inl rfl⟩

/-- The end of an answer read of a lawful port. -/
theorem HostPort.Transacts.ended {p q : HostPort} (hq : ∀ frame, q.select = .answering frame true → ∃ r, q.slot = .answered r frame)
    (hslot : q.slot = p.slot) (hc : q.checkError = p.checkError) (hf : q.slotFull = p.slotFull) (bits : Nat) :
    p.Transacts (.answerRead (.finish bits)) (q.endRead bits) := by
  obtain ⟨hhigh, hce, hfe, hend⟩ := q.endRead_port bits
  refine ⟨fun frame h => (by cases hhigh.symm.trans h), ?_, fun _ => ⟨fun h => hce.trans (hc.trans h), fun h => hfe.trans (hf.trans h)⟩⟩
  rcases hend with h | ⟨⟨frame, hsel⟩, h⟩
  · exact .inl (h.trans hslot)
  · obtain ⟨r, hr⟩ := hq frame hsel
    exact .inr (.inr ⟨bits, r, frame, rfl, hslot.symm.trans hr, h⟩)

/-- Every transaction keeps the port's law, and the round of the slot (R176, R180). -/
theorem exec_transacts {c : Instr} (hc : isPortCommand c = true) (h : exec c s = .next t) (hs : s.PortLawful) :
    s.hostPort.Transacts c t.hostPort := by
  obtain ⟨hslot, hcheck, hfull⟩ := s.openSelect_port
  cases c with
  | requestWrite frame stray =>
    obtain rfl := Host.Outcome.next.inj h
    split
    · exact .calm (by simp [State.riseSelect]) rfl rfl rfl
    · refine ⟨by simp [State.riseSelect], ?_, fun _ => ?_⟩
      · have := s.openSelect.hostPort.offer_slot frame stray
        rw [hslot] at this
        rcases this with h | ⟨he, r, h⟩
        · exact .inl h
        · exact .inr (.inl ⟨frame, stray, r, rfl, he, h⟩)
      · have := s.openSelect.hostPort.offer_sticky frame stray
        rwa [hcheck, hfull] at this
  | answerRead moment =>
    obtain ⟨hbs, hbc, hbf, hbl⟩ := s.openSelect.hostPort.beginRead_port
    cases moment with
    | selector =>
      obtain rfl := Host.Outcome.next.inj h
      dsimp only
      split
      · exact .calm (by simp [State.ignoreSelect]) rfl rfl rfl
      · exact ⟨hbl, .inl (hbs.trans hslot), fun _ => ⟨fun h => hbc.trans (hcheck.trans h), fun h => hbf.trans (hfull.trans h)⟩⟩
    | finish bits =>
      obtain rfl := Host.Outcome.next.inj h
      dsimp only
      split
      · exact .calm (by simp [State.riseSelect]) rfl rfl rfl
      · split
        · exact .ended hs rfl rfl rfl bits
        · exact .ended hbl (hbs.trans hslot) (hbc.trans hcheck) (hbf.trans hfull) bits
  | statusRead =>
    obtain rfl := Host.Outcome.next.inj h
    refine ⟨?_, .inl ?_, fun hne => absurd rfl hne⟩
    · split <;> simp [State.riseSelect]
    · split
      · rfl
      · exact hslot
  | unknownSelector b =>
    obtain rfl := Host.Outcome.next.inj h
    split
    · exact ⟨hs, .inl rfl, fun _ => ⟨id, id⟩⟩
    · split
      · exact .calm (by simp [State.riseSelect]) rfl rfl rfl
      · exact ⟨by simp [State.riseSelect], .inl hslot, fun _ => ⟨fun _ => rfl, fun h => hfull.trans h⟩⟩
  | selectPeriodStart =>
    obtain rfl := Host.Outcome.next.inj h
    unfold State.fallSelect
    split
    · exact .calm (by simp [State.ignoreSelect]) rfl rfl rfl
    · exact .calm (by simp) rfl rfl rfl
  | _ => cases hc

/-- The port is as it was at `u`, or the request that waited there has been answered by a command of the host's (R176). -/
def State.AnsweredSince (u : State) (c : Instr) (s : State) : Prop :=
  s.hostPort = u.hostPort ∨ (servesHost c = true ∧ ∃ r a, u.hostPort.slot = .waiting r
    ∧ s.hostPort = { u.hostPort with slot := .answered r a } ∧ s.engine.turn = .member)

theorem State.AnsweredSince.congr {u : State} {c : Instr} (hp : t.hostPort = s.hostPort) (ht : t.engine.turn = s.engine.turn)
    (h : u.AnsweredSince c s) : u.AnsweredSince c t := by
  unfold State.AnsweredSince
  rwa [hp, ht]

theorem State.AnsweredSince.port_eq {u : State} {c : Instr} (hc : servesHost c = false) (h : u.AnsweredSince c s) (hp : t.hostPort = s.hostPort) :
    u.AnsweredSince c t :=
  .inl (hp.trans (h.resolve_right fun h' => by simp [hc] at h'))

theorem State.Chooses.port (h : s.Chooses t) : t.hostPort = s.hostPort ∧ t.engine = s.engine := by
  cases h with
  | delivery d rest => cases d <;> simp [State.sendDelivery]
  | notice => simp [State.sendNotice]
  | _ => simp

theorem State.loseMember_turn (s : State) (k : Position) : (s.loseMember k).hostPort = s.hostPort
    ∧ (s.loseMember k).engine.turn = s.engine.turn := by simp [State.loseMember, State.cascade]

theorem State.countMiss_turn (s : State) (p : Position) : (s.countMiss p).hostPort = s.hostPort
    ∧ (s.countMiss p).engine.turn = s.engine.turn := by
  rcases s.countMiss_cases p with ⟨h, -⟩ | ⟨h, -⟩ | ⟨h, -⟩ <;> rw [h]
  · simp
  · have := (s.setMember p { s.member p with misses := (s.member p).misses + 1 }).loseMember_turn p
    simpa using this
  · simp [State.failAdmission]

theorem State.intake_turn (s : State) (p : Position) (x : BitVec 40) : (s.intake p x).hostPort = s.hostPort
    ∧ (s.intake p x).engine.turn = s.engine.turn := by
  unfold State.intake
  repeat' split
  all_goals simp

theorem State.responseOutcome_turn (s : State) (k : Addressed) (p : Position) (valid ack : Bool) :
    (s.responseOutcome k p valid ack).hostPort = s.hostPort ∧ (s.responseOutcome k p valid ack).engine.turn = s.engine.turn := by
  unfold State.responseOutcome
  cases k <;> dsimp only <;> split <;> simp [State.countMiss_turn, State.joinMember]

theorem State.takeWord_turn (s : State) (w : ChainWord) : (s.takeWord w).hostPort = s.hostPort
    ∧ (s.takeWord w).engine.turn = s.engine.turn := by
  unfold State.takeWord
  dsimp only
  split
  · split
    · unfold State.takeJoin
      dsimp only
      split <;> simp
    · simp
  · split <;> simp [State.responseOutcome_turn, State.intake_turn]
  · simp

theorem kept_answeredSince {c : Instr} (hport : isPortCommand c = false) (hreset : c ≠ .deviceReset) (u : State) :
    Kept c (u.AnsweredSince c) where
  port hc := by simp [hport] at hc
  deviceReset hc := absurd hc hreset
  resetEnd _ h := h
  answer hc s r st res hw h := by
    refine .inr ⟨hc, r, ?_⟩
    rcases h with h | ⟨-, r', a, -, h, -⟩
    · exact ⟨_, h ▸ hw, by rw [← h]; rfl, rfl⟩
    · rw [h] at hw
      cases hw
  grant s i l ev _ _ h := h.congr (by simp) (by simp)
  create _ s owner f i ev _ h := h.congr (by simp) (by simp)
  repack s plan _ _ _ _ _ h := h.congr (by simp [State.sealRepack]) (by simp [State.sealRepack])
  publish s _ _ _ h := h.congr (by simp [State.sealStaged]) (by simp [State.sealStaged])
  setPublishing s m w h := h.congr (by rw [State.setPublishing_eq]) (by rw [State.setPublishing_eq])
  setExpected s p x h := h.congr (by simp) (by simp)
  setAdmission s m h := h.congr rfl rfl
  chainStart _ s rate limit lead _ h := h.congr rfl rfl
  chainStop _ s _ h := h.congr (by simp [State.stopChain]) (by simp [State.stopChain])
  fetch _ s h := h.congr rfl rfl
  memberAnswer hc s e rest st hd r _ h := h.port_eq hc (by simp [State.pend, State.dequeued])
  memberGrant hc s e rest i l ev st hd r _ _ _ h := h.port_eq hc (by simp [State.pend, State.dequeued])
  memberCreate hc s e rest owner f i ev st hd r _ _ h := h.port_eq (by rw [hc]; rfl) (by simp [State.pend, State.dequeued])
  application s set _ h := h.congr (by simp [State.applySet]) (by simp [State.applySet])
  expiry s i _ h := h.congr (by simp) (by simp)
  expiries s _ h := h.congr (by simp) (by simp)
  windowEnd s _ _ h := by
    unfold State.endWindow
    split
    · exact h.congr (by simp [State.sealStaged]) (by simp [State.sealStaged])
    · exact h.congr (by simp) (by simp)
  choice s _ _ h := h.congr s.chooseMessage_chooses.port.1 (by rw [s.chooseMessage_chooses.port.2])
  drive s r _ h := h.congr rfl rfl
  word s w _ h := h.congr (s.takeWord_turn w).1 (s.takeWord_turn w).2
  frameStart s _ h := h.congr rfl rfl
  slot s i l k bits _ _ h := by
    unfold State.takeSlot State.gatherSlot
    dsimp only
    split <;> exact h.congr (by simp) (by simp)
  miss s p _ h := h.congr (by simp [State.takeMiss, State.countMiss_turn]) (by simp [State.takeMiss, State.countMiss_turn])
  period s lsdi _ h := h.congr rfl rfl

/-- A command that is no transaction leaves the port as it is, or answers the request that waits (R176). -/
theorem exec_answeredSince {c : Instr} (hport : isPortCommand c = false) (hreset : c ≠ .deviceReset) (h : exec c s = .next t) :
    s.AnsweredSince c t := (kept_answeredSince hport hreset s).exec h (.inl rfl)

theorem State.PortLawful.congr (hp : t.hostPort = s.hostPort) (hs : s.PortLawful) : t.PortLawful := by
  unfold State.PortLawful
  rwa [hp]

theorem State.AnsweredSince.lawful {c : Instr} (h : s.AnsweredSince c t) (hs : s.PortLawful) : t.PortLawful := by
  rcases h with h | ⟨-, r, a, hw, h, -⟩
  · exact hs.congr h
  · intro frame hsel
    rw [h] at hsel
    obtain ⟨r', hr⟩ := hs frame hsel
    cases hr.symm.trans hw

/-- Every command keeps the port's law (R176, R178). -/
theorem exec_portLawful {c : Instr} (hs : s.PortLawful) (h : exec c s = .next t) : t.PortLawful := by
  by_cases hport : isPortCommand c = true
  · exact (exec_transacts hport h hs).law
  · by_cases hreset : c = .deviceReset
    · subst hreset
      obtain rfl := Host.Outcome.next.inj h
      intro frame hsel
      dsimp only at hsel
      split at hsel <;> cases hsel
    · exact (exec_answeredSince (Bool.eq_false_iff.2 hport) hreset h).lawful hs

/-- Settles O9: a transaction moves the slot by its own rules, any other command only answers what waits. -/
theorem slotAndStickyFlagsRound : Obligations.SlotAndStickyFlagsRound := by
  unfold Obligations.SlotAndStickyFlagsRound
  refine ⟨fun s t hs h => ?_, fun c s t hs h hreset => ?_⟩
  · unfold step at h
    split at h
    · exact Host.Outcome.next.inj h ▸ hs
    · next c rest _ =>
      exact exec_portLawful (s := { s with pending := rest }) (State.PortLawful.congr (s := s) rfl hs) h
  · by_cases hport : isPortCommand c = true
    · obtain ⟨-, hslot, hsticky⟩ := exec_transacts hport h hs
      exact ⟨hslot.imp_right fun h => h.imp_right .inr, hsticky⟩
    · rcases exec_answeredSince (Bool.eq_false_iff.2 hport) hreset h with hp | ⟨-, r, a, hw, hp, hturn⟩
      · exact ⟨.inl (by rw [hp]), fun _ => by rw [hp]; exact ⟨id, id⟩⟩
      · exact ⟨.inr (.inr (.inl ⟨r, a, hw, by rw [hp], hturn⟩)), fun _ => by rw [hp]; exact ⟨id, id⟩⟩

/-! ## Reset -/

theorem State.reset_member (p : Position) : State.reset.member p = Member.vacant := by
  unfold State.member State.reset
  split <;> simp

/-- Settles O3, block by block. -/
theorem resetLeavesTheGivenValues : Obligations.ResetLeavesTheGivenValues := by
  unfold Obligations.ResetLeavesTheGivenValues
  refine ⟨fun i => by simp [State.reset], fun n => ?_, fun c => ?_, fun d hop => ?_, rfl, rfl, State.reset_member, rfl, rfl, rfl, rfl, rfl, rfl,
    rfl, rfl, rfl, rfl, fun c => ?_, rfl, rfl, ?_, ?_, rfl, ?_⟩
  · rw [State.streamMap, List.find?_eq_none]
    simp [State.reset_lease?]
  · rw [State.channelMap, List.find?_eq_none]
    simp [State.reset_lease?]
  · simp [State.planningMap, State.reset_lease?]
  · simp [State.reset, LocalPort.silent]
  · decide
  · decide
  · decide

/-- A device right after reset is quiet (R133). -/
theorem State.reset_quiet : State.reset.Quiet where
  publisher := rfl
  queue := rfl
  members p := by
    rw [State.reset_member]
    exact ⟨rfl, rfl, rfl, rfl⟩
  limits := ⟨rfl, rfl⟩
  control := ⟨rfl, rfl, rfl⟩
  frame := rfl
  port := rfl
  leases i l h := absurd (h.symm.trans (State.reset_lease? i)) (by simp)

/-- The laws of a device with an empty table right after reset. -/
theorem State.reset_tables : State.reset.TableLawful ∧ State.reset.ChannelsLawful :=
  have free {i : LeaseIndex} {l : Lease} {P : Prop} (h : State.reset.lease? i = some l) : P := absurd (h.symm.trans (State.reset_lease? i)) (by simp)
  ⟨⟨fun _ _ h => free h, fun _ _ _ _ h => free h⟩, ⟨fun _ _ _ h => free h, fun _ _ _ _ _ h => free h⟩⟩

theorem State.reset_lawful : State.reset.Lawful :=
  have hw := State.reset_quiet.works
  ⟨fun _ h => (by cases h), State.reset_tables.1, hw.layout, State.reset_tables.2, hw.members, hw.queue, hw.names, hw.publisher,
    fun _ => State.reset_quiet, State.reset_attentionLawful⟩

/-- Settles O52: a device right after reset is quiet. -/
theorem lawsHoldAtReset : Obligations.LawsHoldAtReset := State.reset_lawful

end

end Sys2Proof.Machine
end

section
/-! PROOFS. Every command keeps every law of the device. -/

namespace Sys2Proof.Machine

section
variable {s t : State} {i : LeaseIndex} {ev : EntryEvent} {l l' : Lease}

/-! ## A stopped chain (R22, R66, R133, R135) -/

/-- What a stopped chain leaves of a lease: one of the head, without listeners and without work (R22). -/
def Lease.Rests (l : Lease) : Prop :=
  l.source = 0 ∧ l.direction = .down ∧ l.active.listeners = 0 ∧ l.active.placement = none ∧ l.sealed = none ∧ l.staged = none ∧ l.mark = none

/-- A quiet device stays quiet when nothing changes that the law speaks of. -/
theorem State.Quiet.congr (hq : s.Quiet) (hp : t.publisher.stage = s.publisher.stage) (he : t.engine.queue = s.engine.queue)
    (hm : ∀ p, (t.member p).state = (s.member p).state ∧ (t.member p).identity = (s.member p).identity
      ∧ (t.member p).misses = (s.member p).misses ∧ (t.member p).answer = (s.member p).answer)
    (hlimit : t.members.missLimit = s.members.missLimit) (hc : t.chain = s.chain) (hport : t.localPort = s.localPort)
    (hl : ∀ i l, t.lease? i = some l → l.Rests) : t.Quiet where
  publisher := hp.trans hq.publisher
  queue := he.trans hq.queue
  members p := by
    obtain ⟨h1, h2, h3, h4⟩ := hm p
    obtain ⟨q1, q2, q3, q4⟩ := hq.members p
    exact ⟨h1.trans q1, h2.trans q2, h3.trans q3, h4.trans q4⟩
  limits := ⟨hlimit.trans hq.limits.1, by rw [hc]; exact hq.limits.2⟩
  control := by
    rw [hc]
    exact hq.control
  frame := by
    rw [hc]
    exact hq.frame
  port := hport.trans hq.port
  leases := hl

/-- A quiet device stays quiet when its table, members, chain and Local Port stay. -/
theorem State.Quiet.of_eq (hq : s.Quiet) (hp : t.publisher.stage = s.publisher.stage) (he : t.engine.queue = s.engine.queue)
    (hm : t.members.records = s.members.records) (hlimit : t.members.missLimit = s.members.missLimit) (hc : t.chain = s.chain)
    (hport : t.localPort = s.localPort) (hl : t.leases = s.leases) : t.Quiet := by
  have hmember (p : Position) : t.member p = s.member p := by
    unfold State.member
    rw [hm]
  exact hq.congr hp he (fun p => by rw [hmember]; exact ⟨rfl, rfl, rfl, rfl⟩) hlimit hc hport
    fun i l h => hq.leases i l ((State.lease?_congr hl i).symm.trans h)

/-- On a stopped chain no window opens (R78). -/
theorem State.noteStaged_stopped (hr : s.chain.state = .stopped) : s.noteStaged = s := by
  unfold State.noteStaged
  rw [if_neg]
  rintro ⟨-, -, h⟩
  cases hr.symm.trans h

theorem State.onEntry_stopped (hr : s.chain.state = .stopped) (i : LeaseIndex) (ev : EntryEvent) :
    (s.onEntry i ev).publisher = s.publisher := by
  unfold State.onEntry
  dsimp only
  split
  · rw [State.noteStaged_stopped (by exact hr)]
  · rfl

theorem State.Quiet.onEntry (hq : s.Quiet) (hr : s.chain.state = .stopped) (hev : ∀ l', ev.entry.lease = some l' → l'.Rests) :
    (s.onEntry i ev).Quiet := by
  refine hq.congr (by rw [State.onEntry_stopped hr]) (by simp) (fun p => by simp) (by simp) (by simp) (by simp) fun j l' h => ?_
  rw [State.lease?_onEntry] at h
  split at h
  · exact hev l' h
  · exact hq.leases j l' h

/-- On a stopped chain only the head can be named (R50). -/
theorem State.Quiet.usable (hq : s.Quiet) {p : Position} (h : s.usable p = true) : p = 0 := by
  rcases State.usable_iff.1 h with h | h
  · exact h
  · rw [State.joined_iff, (hq.members p).1] at h
    cases h

theorem Lease.Rests.latest (h : l.Rests) : l.latest = l.active := by
  obtain ⟨-, -, -, -, hs, ht, -⟩ := h
  simp [Lease.latest, Lease.sealedConfig, hs, ht]

/-- A request that a resting lease is granted leaves it at rest, or frees it. -/
theorem State.Grants.rests (hg : s.Grants i l ev) (hl : s.lease? i = some l) (hq : s.Quiet) :
    ∀ l', ev.entry.lease = some l' → l'.Rests := by
  have hrest : l.Rests := hq.leases i l hl
  have hlatest := hrest.latest
  obtain ⟨hsrc, hdir, hlis, hplace, hsealed, hstaged, hmark⟩ := hrest
  rintro l' hl'
  cases hg with
  | shape w n c live count channels placed =>
    have hzero : (l.reshaped w n).listeners = 0 := by rw [Lease.reshaped, hlatest, hlis]
    rw [State.placeFor, if_pos hzero] at placed
    cases placed
    have honce : l.atOnce { l.reshaped w n with placement := none } = true := by
      simp [Lease.atOnce, Configuration.placed, hplace, Lease.sealedConfig, hsealed, hstaged, hzero]
    rw [adoptEvent_entry, Lease.adopt, if_pos honce] at hl'
    cases hl'
    exact ⟨hsrc, hdir, hzero, rfl, hsealed, by simp [Lease.sealedConfig, hsealed], hmark⟩
  | listen p c live usable side =>
    rw [hq.usable usable, hdir, hsrc] at side
    cases side
  | drop p live old =>
    rw [hlatest, hlis] at old
    simp [hasListener] at old
  | retire who live =>
    have honce : l.retiresAtOnce = true := by simp [Lease.retiresAtOnce, Configuration.placed, hplace, hsealed, hstaged]
    rw [retireLive, if_pos honce] at hl'
    cases hl'
  | requested who expired => cases hmark.symm.trans expired
  | renew t m standing renewed =>
    simp only [Lease.renewed, hmark, Option.some.injEq] at renewed
    subst renewed
    cases hl'
    exact ⟨hsrc, hdir, hlis, hplace, hsealed, hstaged, rfl⟩
  | rights a b live =>
    cases hl'
    exact ⟨hsrc, hdir, hlis, hplace, hsealed, hstaged, hmark⟩
  | bind base live channels =>
    cases hl'
    exact ⟨hsrc, hdir, hlis, hplace, hsealed, hstaged, hmark⟩
  | query =>
    cases hl'
    exact ⟨hsrc, hdir, hlis, hplace, hsealed, hstaged, hmark⟩
  | nothing =>
    cases hl'.symm.trans hl
    exact ⟨hsrc, hdir, hlis, hplace, hsealed, hstaged, hmark⟩

/-- A CREATE on a stopped chain makes a lease at rest: it names no position but the head. -/
theorem State.Creates.rests {owner : Position} {f : CreateFields} (hc : s.Creates owner f i ev) (hq : s.Quiet) :
    ∀ l', ev.entry.lease = some l' → l'.Rests := by
  have only_head {p : Position} (h : p = 0 ∨ s.joined p = true) : p = 0 := h.resolve_right fun hj => by
    rw [State.joined_iff, (hq.members p).1] at hj
    cases hj
  have down (ha : s.CreateAllowed owner f) : f.direction = .down := by
    cases hd : f.direction with
    | down => rfl
    | up => exact absurd (only_head ha.source) (ha.upSource hd)
  rintro l' hl'
  cases hc with
  | bare free allowed formed empty =>
    cases hl'
    exact ⟨only_head allowed.source, down allowed, rfl, rfl, rfl, rfl, rfl⟩
  | listened free allowed formed some o fits =>
    obtain ⟨p, hp⟩ := listeners_ne_zero_iff.1 some
    have hside := allowed.side p hp
    rw [only_head (allowed.usable p hp), only_head allowed.source, down allowed] at hside
    cases hside

/-! ## Every command (R19 to R135) -/

/-- The laws that a command keeps together. -/
structure State.Sound (s : State) : Prop where
  table   : s.TableLawful
  works   : s.Works
  stopped : s.StoppedLawful

theorem State.StoppedLawful.of_running (h : s.chain.state = .running) : s.StoppedLawful := fun hs => by cases h.symm.trans hs

theorem State.inFrame_running (h : s.inFrame = true) : s.chain.state = .running := by
  simp only [State.inFrame, Bool.and_eq_true, beq_iff_eq] at h
  exact h.1

/-- The laws after an event of a running chain. -/
theorem State.Sound.runs {c : Instr} (hs : s.Sound) (ht : Kept c State.TableLawful → s.TableLawful → t.TableLawful)
    (hw : t.Works) (hr : t.chain.state = .running) : t.Sound := ⟨ht (kept_tableLawful c) hs.table, hw, .of_running hr⟩

theorem State.responseDue_inFrame (h : s.responseDue = true) : s.inFrame = true := by
  simp only [State.responseDue, Bool.and_eq_true] at h
  exact h.1.1

theorem State.awaits_inFrame {p : Position} (h : s.awaits p = true) : s.inFrame = true := by
  simp only [State.awaits, Bool.and_eq_true] at h
  exact h.1.1

/-- Nothing that the laws speak of has changed. -/
theorem State.Sound.same (hs : s.Sound) (hl : t.leases = s.leases) (he : t.engine.queue = s.engine.queue) (hp : t.publisher = s.publisher)
    (hm : t.members.records = s.members.records) (hlimit : t.members.missLimit = s.members.missLimit) (hc : t.chain = s.chain)
    (hport : t.localPort = s.localPort ∨ s.chain.state = .running) : t.Sound := by
  have hmember (p : Position) : t.member p = s.member p := by
    unfold State.member
    rw [hm]
  refine ⟨hs.table.congr hl, hs.works.congr hl hp (by rw [hc]) (fun p => by rw [hmember]) (fun p => by rw [hmember])
    (fun p => by rw [hmember]) (by rw [he]) (by rw [hc]) fun m h _ => State.unanswered_congr hc ▸ h, fun hst => ?_⟩
  have hst : s.chain.state = .stopped := hc ▸ hst
  exact (hs.stopped hst).of_eq (by rw [hp]) he hm hlimit hc (hport.resolve_right fun h => by cases hst.symm.trans h) hl

theorem State.pend_sound {e : QueueEntry} (ht : (s.pend e st h r).TableLawful) (hs : s.Works) (hj : s.joined e.position = true)
    (hq : s.queued e.position = false) (ha : (s.member e.position).answer = none) (hr : s.chain.state = .running) : (s.pend e st h r).Sound :=
  ⟨ht, hs.pend hj hq ha st h r, .of_running (by simpa [State.pend] using hr)⟩

/-- A member's request is there only while the chain runs. -/
theorem State.Sound.running_of_queue (hs : s.Sound) {e : QueueEntry} {rest : List QueueEntry} (hq : s.engine.queue = e :: rest) :
    s.chain.state = .running := by
  cases hr : s.chain.state with
  | running => rfl
  | stopped => cases (hs.stopped hr).queue.symm.trans hq

/-- A member request is taken, an event on the entries made of it, and its sender answered. -/
theorem State.Sound.answered (hs : s.Sound) {e : QueueEntry} {rest : List QueueEntry} (hq : s.engine.queue = e :: rest) {u : State}
    (hu : u.Works) (hm : u.members = s.members) (he : u.engine.queue = rest) (hc : u.chain = s.chain) {st : Status} {h : Handle} {r : BitVec 22}
    (ht : (u.pend e st h r).TableLawful) : (u.pend e st h r).Sound := by
  obtain ⟨hj, hnot, ha⟩ := hs.works.queue.head hq
  have hmember (p : Position) : u.member p = s.member p := by
    unfold State.member
    rw [hm]
  refine State.pend_sound ht hu ((State.joined_congr (by rw [hmember])).trans hj) (Bool.eq_false_iff.2 fun h => ?_) (by rw [hmember, ha])
    (by rw [hc]; exact hs.running_of_queue hq)
  rw [State.queued_iff, he] at h
  exact hnot h

/-- A reason more raises attention and nothing else. -/
theorem State.onEntry_raising_attention (s : State) (i : LeaseIndex) (ev : EntryEvent) (r : Reasons) :
    s.onEntry i (ev.raising r) = { s.onEntry i ev with attention := (s.onEntry i (ev.raising r)).attention } := by
  unfold State.onEntry EntryEvent.raising
  dsimp only
  split
  · unfold State.noteStaged
    dsimp only
    split <;> rfl
  · rfl

theorem State.Works.raising (hw : (s.onEntry i ev).Works) (r : Reasons) : (s.onEntry i (ev.raising r)).Works := by
  rw [State.onEntry_raising_attention]
  exact hw.congr rfl rfl rfl (fun _ => rfl) (fun _ => rfl) (fun _ => Iff.rfl) rfl (.refl _) fun _ h _ => h

theorem kept_sound (c : Instr) : Kept c State.Sound where
  port _ s t _ ht hs := by
    rw [ht]
    exact hs.same rfl rfl rfl rfl rfl rfl (.inl rfl)
  deviceReset hc s t h _ := by
    subst hc
    obtain rfl := Host.Outcome.next.inj h
    have hr := State.reset_lawful
    have hsound : State.reset.Sound := ⟨hr.table, hr.works, hr.stopped⟩
    exact hsound.same rfl rfl rfl rfl rfl rfl (.inl rfl)
  resetEnd s hs := hs.same rfl rfl rfl rfl rfl rfl (.inl rfl)
  answer _ s r st res _ hs := hs.same rfl rfl rfl rfl rfl rfl (.inl rfl)
  grant s i l ev hl hg hs := by
    refine ⟨(kept_tableLawful c).grant s i l ev hl hg hs.table, hs.works.grant hs.table hl hg, fun hst => ?_⟩
    have hst : s.chain.state = .stopped := by simpa using hst
    exact (hs.stopped hst).onEntry hst (hg.rests hl (hs.stopped hst))
  create hc s owner f i ev hcr hs := by
    refine ⟨(kept_tableLawful c).create hc s owner f i ev hcr hs.table, hs.works.create hcr, fun hst => ?_⟩
    have hst : s.chain.state = .stopped := by simpa using hst
    exact (hs.stopped hst).onEntry hst (hcr.rests (hs.stopped hst))
  repack s plan hr hi hb hp hm hs :=
    ⟨(kept_tableLawful c).repack s plan hr hi hb hp hm hs.table, hs.works.sealRepack hr hi hb hp hm,
      .of_running (kept_running.repack s plan hr hi hb hp hm hr)⟩
  publish s hr hset hany hs :=
    ⟨(kept_tableLawful c).publish s hr hset hany hs.table, hs.works.sealStaged hs.table hr hset hany,
      .of_running (kept_running.publish s hr hset hany hr)⟩
  setPublishing s m w hs := by
    refine ⟨(kept_tableLawful c).setPublishing s m w hs.table, hs.works.setPublishing m w, fun hst => ?_⟩
    rw [State.setPublishing_eq] at hst ⊢
    have hst : s.chain.state = .stopped := hst
    have hq := hs.stopped hst
    have hstage : s.stageUnder m w = .idle := by
      unfold State.stageUnder
      rw [hq.publisher]
      simp [hst]
    exact hq.of_eq (hstage.trans hq.publisher.symm) rfl rfl rfl rfl rfl rfl
  setExpected s p x hs := by
    refine ⟨(kept_tableLawful c).setExpected s p x hs.table, hs.works.setMember rfl rfl Iff.rfl, fun hst => ?_⟩
    have hst : s.chain.state = .stopped := by simpa using hst
    have hq := hs.stopped hst
    refine hq.congr (by simp) (by simp) (fun q => ?_) (by unfold State.setMember; split <;> rfl) (by simp) (by simp) fun i l h => hq.leases i l (by simpa using h)
    rw [State.member_setMember]
    split
    · next h =>
      rw [h.1]
      exact ⟨rfl, rfl, rfl, rfl⟩
    · exact ⟨rfl, rfl, rfl, rfl⟩
  setAdmission s m hs := hs.same rfl rfl rfl rfl rfl rfl (.inl rfl)
  chainStart hc s rate limit lead hst hs :=
    ⟨(kept_tableLawful c).chainStart hc s rate limit lead hst hs.table, hs.works.startChain (hs.stopped hst) rate limit lead, .of_running rfl⟩
  chainStop hc s hr hs :=
    have hq := State.stopChain_quiet hs.table
    ⟨(kept_tableLawful c).chainStop hc s hr hs.table, hq.works, fun _ => hq⟩
  fetch hc s hs := hs.same rfl rfl rfl rfl rfl rfl (.inl rfl)
  memberAnswer hc s e rest st h r hq hs :=
    hs.answered hq (hs.works.dequeued hq) rfl rfl rfl ((kept_tableLawful c).memberAnswer hc s e rest st h r hq hs.table)
  memberGrant hc s e rest i l ev st h r hq hl hg hs := by
    refine hs.answered hq ?_ (by simp [State.dequeued]) (by simp [State.dequeued]) (by simp [State.dequeued])
      ((kept_tableLawful c).memberGrant hc s e rest i l ev st h r hq hl hg hs.table)
    have hw := (hs.works.dequeued hq).grant (hs.table.congr (s := s) (t := s.dequeued rest) rfl) hl hg
    exact hw.raising _
  memberCreate hc s e rest owner f i ev st h r hq hcr hs := by
    refine hs.answered hq ?_ (by simp [State.dequeued]) (by simp [State.dequeued]) (by simp [State.dequeued])
      ((kept_tableLawful c).memberCreate hc s e rest owner f i ev st h r hq hcr hs.table)
    exact ((hs.works.dequeued hq).create hcr).raising _
  application s set happ hs :=
    have hr := State.inFrame_running happ.1
    ⟨(kept_tableLawful c).application s set happ hs.table, hs.works.applySet happ, .of_running (kept_running.application s set happ hr)⟩
  expiry s i hf hs :=
    have hr := State.inFrame_running hf
    ⟨(kept_tableLawful c).expiry s i hf hs.table,
      hs.works.calm hs.table (State.onEntry_onTable _ _ _) (.onEntry (Entry.takes_expire _ _)), .of_running (kept_running.expiry s i hf hr)⟩
  expiries s hf hs :=
    have hr := State.inFrame_running hf
    ⟨(kept_tableLawful c).expiries s hf hs.table,
      hs.works.calm hs.table (State.onEveryEntry_onTable _ _) (.onEveryEntry fun _ => Entry.takes_expire _ _),
      .of_running (kept_running.expiries s hf hr)⟩
  windowEnd s hf hst hs :=
    have hr := State.inFrame_running hf
    ⟨(kept_tableLawful c).windowEnd s hf hst hs.table, hs.works.endWindow hs.table hst, .of_running (kept_running.windowEnd s hf hst hr)⟩
  choice s hf hnone hs :=
    have hr := State.inFrame_running hf
    ⟨(kept_tableLawful c).choice s hf hnone hs.table, hs.works.chooses s.chooseMessage_chooses,
      .of_running (kept_running.choice s hf hnone hr)⟩
  drive s r hf hs :=
    have hr := State.inFrame_running hf
    ⟨(kept_tableLawful c).drive s r hf hs.table, hs.works.setFrame fun _ h _ => h, .of_running hr⟩
  word s w hdue hs :=
    have hr := State.inFrame_running (State.responseDue_inFrame hdue)
    ⟨(kept_tableLawful c).word s w hdue hs.table, hs.works.takeWord hs.table hdue w, .of_running (kept_running.word s w hdue hr)⟩
  frameStart s hr hs :=
    ⟨(kept_tableLawful c).frameStart s hr hs.table, hs.works.openFrame, .of_running hr⟩
  slot s i l k bits hl hf hs :=
    have hr := State.inFrame_running hf
    ⟨(kept_tableLawful c).slot s i l k bits hl hf hs.table, hs.works.takeSlot hs.table hl k bits,
      .of_running (kept_running.slot s i l k bits hl hf hr)⟩
  miss s p haw hs :=
    have hr := State.inFrame_running (State.awaits_inFrame haw)
    ⟨(kept_tableLawful c).miss s p haw hs.table, hs.works.takeMiss hs.table, .of_running (kept_running.miss s p haw hr)⟩
  period s lsdi hf hs := hs.same rfl rfl rfl rfl rfl rfl (.inr (State.inFrame_running hf))

/-- Every step keeps every law. -/
theorem step_lawful (hs : s.Lawful) (h : step s = .next t) : t.Lawful := by
  have hsound : t.Sound := step_keeps kept_sound (fun s _ (hs : s.Sound) => hs.same rfl rfl rfl rfl rfl rfl (.inl rfl))
    ⟨hs.table, hs.works, hs.stopped⟩ h
  have hattention : t.AttentionLawful := by
    unfold step at h
    split at h
    · exact Host.Outcome.next.inj h ▸ hs.attention
    · next c rest _ => exact (attentionIsKept c { s with pending := rest } t ⟨hs.attention.lease, hs.attention.device⟩ h).1
  exact ⟨slotAndStickyFlagsRound.1 s t hs.port h, hsound.table, hsound.works.layout, stepsKeepTheChannels s t hs.channels h,
    hsound.works.members, hsound.works.queue, hsound.works.names, hsound.works.publisher, hsound.stopped, hattention⟩

/-- Settles O55. -/
theorem stepsKeepTheLayout : Obligations.StepsKeepTheLayout := fun _ _ hs h => (step_lawful hs h).layout

/-- Settles O56. -/
theorem stepsKeepTheMembers : Obligations.StepsKeepTheMembers := fun _ _ hs h => ⟨(step_lawful hs h).members, (step_lawful hs h).queue⟩

/-- Settles O57. -/
theorem stepsKeepTheNames : Obligations.StepsKeepTheNames := fun _ _ hs h => (step_lawful hs h).names

/-- Settles O58. -/
theorem stepsKeepThePublisher : Obligations.StepsKeepThePublisher := fun _ _ hs h => ⟨(step_lawful hs h).publisher, (step_lawful hs h).stopped⟩

end

end Sys2Proof.Machine
end

section
/-! PROOFS. What the host and the members write is what the device reads (R46, R186, R188, R190). -/

namespace Sys2Proof.Machine

/-! ## One byte (R190) -/

theorem byte_eq_ofNat {b : Byte} {n : Nat} (h : n < 256) : b = BitVec.ofNat 8 n ↔ b.toNat = n := by
  rw [← BitVec.toNat_inj, BitVec.toNat_ofNat, Nat.mod_eq_of_lt (by omega)]

theorem readPosition_iff {b : Byte} {p : Position} : readPosition b = some p ↔ b = posByte p := by
  unfold readPosition posByte
  rw [byte_eq_ofNat (by omega)]
  split
  · rw [Option.some.injEq, Fin.ext_iff]
  · simp only [reduceCtorEq, false_iff]
    omega

theorem posByte_eq_zero {p : Position} : posByte p = 0 ↔ p = 0 := by revert p; decide

theorem readMemberPosition_iff {b : Byte} {p : Position} : readMemberPosition b = some p ↔ b = posByte p ∧ p ≠ 0 := by
  unfold readMemberPosition
  split
  · next h =>
    simp only [reduceCtorEq, false_iff, not_and_not_right]
    exact fun hb => posByte_eq_zero.1 (hb.symm.trans h)
  · next h =>
    rw [readPosition_iff, iff_self_and]
    rintro rfl rfl
    exact h rfl

theorem readHandle_iff {i g : Byte} {h : Handle} :
    readHandle i g = some h ↔ i = BitVec.ofNat 8 h.index.val ∧ g = h.generation.zeroExtend 8 := by
  refine ⟨fun hr => ?_, fun ⟨hi, hg⟩ => by rw [hi, hg, readHandle_bytes]⟩
  unfold readHandle at hr
  split at hr
  · next hi =>
    split at hr
    · next hg =>
      cases hr
      refine ⟨by simp, BitVec.eq_of_toNat_eq ?_⟩
      simp only [BitVec.truncate_eq_setWidth, BitVec.toNat_setWidth]
      omega
    · cases hr
  · cases hr

theorem readStream_iff {b : Byte} {n : Stream} : readStream b = some n ↔ b = n ∧ n ≠ 0 := by
  unfold readStream
  split
  · next h => simp [h]; exact fun h' => h'.symm
  · next h =>
    rw [Option.some.injEq, iff_self_and]
    rintro rfl
    exact h

theorem readDirection_iff {b : Byte} {d : Direction} : readDirection b = some d ↔ b = d.bit.zeroExtend 8 := by
  unfold readDirection
  cases d <;> split <;> simp_all [Direction.bit]

theorem readWidth_iff {b : Byte} {w : Width} : readWidth b = some w ↔ b = widthByte w := by
  refine ⟨fun h => ?_, fun h => by rw [h]; cases w <;> rfl⟩
  unfold readWidth Width.ofCode at h
  refine BitVec.eq_of_toNat_eq ?_
  split at h <;> cases h <;> assumption

theorem readCount_iff {b : Byte} {n : Nat} : readCount b = some n ↔ b = BitVec.ofNat 8 n ∧ 1 ≤ n ∧ n ≤ 8 := by
  unfold readCount
  split
  · next h =>
    rw [Option.some.injEq]
    refine ⟨?_, fun ⟨hb, _, h8⟩ => (byte_eq_ofNat (by omega)).1 hb⟩
    rintro rfl
    exact ⟨by simp, h⟩
  · next h =>
    simp only [reduceCtorEq, false_iff]
    rintro ⟨hb, h1, h8⟩
    rw [byte_eq_ofNat (by omega)] at hb
    exact h (hb ▸ ⟨h1, h8⟩)

theorem readRights_iff {b : Byte} {r : Bool × Bool} : readRights b = some r ↔ b = rightsByte r.1 r.2 := by
  refine ⟨fun h => ?_, fun h => by rw [h, readRights_rightsByte]⟩
  unfold readRights at h
  split at h
  · next hb =>
    cases h
    have all : ∀ n < 4, (BitVec.ofNat 8 n : Byte) = rightsByte ((BitVec.ofNat 8 n).getLsbD 0) ((BitVec.ofNat 8 n).getLsbD 1) := by decide
    simpa using all b.toNat hb
  · cases h

theorem readBase_iff {b : Byte} {base : Option Channel} : readBase b = some base ↔ b = baseByte base := by
  refine ⟨fun h => ?_, fun h => by rw [h, readBase_baseByte]⟩
  unfold readBase at h
  split at h
  · next hb =>
    cases h
    exact hb
  · split at h
    · cases h
      simp [baseByte]
    · cases h

theorem readFlag_iff {b : Byte} {f : Bool} : readFlag b = some f ↔ b = flagByte f := by
  unfold readFlag flagByte
  cases f <;> split <;> simp_all

/-! ## Two bytes -/

theorem twoBytes_eq_iff {hi lo : Byte} {v : BitVec 16} : [hi, lo] = twoBytes v ↔ hi ++ lo = v := by
  refine ⟨fun h => ?_, fun h => ?_⟩
  · unfold twoBytes at h
    cases h
    exact fieldAt_bytes_append v
  · rw [← h, twoBytes, fieldAt_append_left _ _ (by omega), fieldAt_append_right _ _ (by omega) (by omega), fieldAt_all, fieldAt_all]

theorem readTerm_iff {hi lo : Byte} {t : Term} : readTerm hi lo = some t ↔ [hi, lo] = termBytes t := by
  unfold readTerm termBytes
  rw [twoBytes_eq_iff]
  refine ⟨fun h => ?_, fun h => ?_⟩
  · split at h
    · cases h
      refine BitVec.eq_of_toNat_eq ?_
      simp only [BitVec.truncate_eq_setWidth, BitVec.toNat_setWidth]
      omega
    · cases h
  · have ht : (hi ++ lo).toNat = t.toNat := by
      rw [h]
      simp only [BitVec.truncate_eq_setWidth, BitVec.toNat_setWidth]
      omega
    rw [if_pos (by omega), h]
    simp

theorem readNewTerm_iff {hi lo : Byte} {t : Option Term} : readNewTerm hi lo = some t ↔ [hi, lo] = newTermBytes t := by
  have keep : newTermBytes none = twoBytes 0xFFFF := by decide
  unfold readNewTerm
  split
  · next h =>
    cases t with
    | none => rw [keep, twoBytes_eq_iff, h]; simp
    | some t =>
      rw [newTermBytes, ← readTerm_iff, readTerm, h]
      simp
  · next h =>
    cases t with
    | none =>
      rw [keep, twoBytes_eq_iff]
      exact iff_of_false (by simp) h
    | some t =>
      rw [newTermBytes, ← readTerm_iff]
      simp

/-! ## Whole parameter lists -/

theorem readCreate_iff {ps : List Byte} {f : CreateFields} :
    readCreate ps = some f ↔ ps = createParams f ∧ f.stream ≠ 0 ∧ 1 ≤ f.count ∧ f.count ≤ 8 := by
  unfold readCreate
  split
  · next st src dir w n r t1 t0 m1 m0 b =>
    simp only [Option.bind_eq_bind, Option.bind_eq_some_iff, Option.some.injEq, readStream_iff, readPosition_iff, readDirection_iff,
      readWidth_iff, readCount_iff, readRights_iff, readTerm_iff, readBase_iff]
    have hparams : [st, src, dir, w, n, r, t1, t0, m1, m0, b] = createParams f ↔ st = f.stream ∧ src = posByte f.source
        ∧ dir = f.direction.bit.zeroExtend 8 ∧ w = widthByte f.width ∧ n = BitVec.ofNat 8 f.count
        ∧ r = rightsByte f.listenOpen f.shapeOpen ∧ [t1, t0] = termBytes f.term ∧ [m1, m0] = twoBytes f.listeners ∧ b = baseByte f.base := by
      simp [createParams, termBytes, twoBytes, and_assoc]
    rw [hparams, twoBytes_eq_iff]
    constructor
    · rintro ⟨_, ⟨rfl, hst⟩, _, rfl, _, rfl, _, rfl, _, ⟨rfl, hn⟩, _, rfl, _, ht, _, rfl, rfl⟩
      exact ⟨⟨rfl, rfl, rfl, rfl, rfl, rfl, ht, rfl, rfl⟩, hst, hn⟩
    · rintro ⟨⟨h1, h2, h3, h4, h5, h6, h7, h8, h9⟩, hst, hn⟩
      exact ⟨_, ⟨h1, hst⟩, _, h2, _, h3, _, h4, _, ⟨h5, hn⟩, (f.listenOpen, f.shapeOpen), h6, _, h7, _, h9, by rw [h8]⟩
  · next hne =>
    simp only [reduceCtorEq, false_iff]
    rintro ⟨rfl, -⟩
    exact hne _ _ _ _ _ _ _ _ _ _ _ rfl

theorem readShape_iff {ps : List Byte} {h : Handle} {w : Width} {n : Nat} :
    readShape ps = some (h, w, n) ↔ ps = shapeParams h w n ∧ 1 ≤ n ∧ n ≤ 8 := by
  unfold readShape
  split
  · simp only [Option.bind_eq_bind, Option.bind_eq_some_iff, Option.some.injEq, Prod.mk.injEq, readHandle_iff, readWidth_iff, readCount_iff,
      shapeParams, Handle.bytes, List.cons_append, List.nil_append, List.cons.injEq, and_true]
    constructor
    · rintro ⟨_, ⟨rfl, rfl⟩, _, rfl, _, ⟨rfl, hn⟩, rfl, rfl, rfl⟩
      exact ⟨⟨rfl, rfl, rfl, rfl⟩, hn⟩
    · rintro ⟨⟨rfl, rfl, rfl, rfl⟩, hn⟩
      exact ⟨h, ⟨rfl, rfl⟩, w, rfl, n, ⟨rfl, hn⟩, rfl, rfl, rfl⟩
  · next hne =>
    simp only [reduceCtorEq, false_iff]
    rintro ⟨rfl, -⟩
    exact hne _ _ _ _ rfl

/-- The parameters of a request on a handle with one byte more. -/
theorem handle_byte_iff {α : Type} {read : Byte → Option α} {write : α → Byte} (hr : ∀ b x, read b = some x ↔ b = write x)
    {i g b : Byte} {h : Handle} {x : α} : ((readHandle i g).bind fun h => (read b).bind fun x => some (h, x)) = some (h, x)
      ↔ [i, g, b] = h.bytes ++ [write x] := by
  simp only [Option.bind_eq_some_iff, Option.some.injEq, Prod.mk.injEq, readHandle_iff, hr, Handle.bytes, List.cons_append, List.nil_append,
    List.cons.injEq, and_true]
  constructor
  · rintro ⟨_, ⟨rfl, rfl⟩, _, rfl, rfl, rfl⟩
    exact ⟨rfl, rfl, rfl⟩
  · rintro ⟨rfl, rfl, rfl⟩
    exact ⟨h, ⟨rfl, rfl⟩, x, rfl, rfl, rfl⟩

theorem readHandlePosition_iff {ps : List Byte} {h : Handle} {p : Position} :
    readHandlePosition ps = some (h, p) ↔ ps = h.bytes ++ [posByte p] := by
  unfold readHandlePosition
  split
  · exact handle_byte_iff fun _ _ => readPosition_iff
  · next hne =>
    simp only [reduceCtorEq, false_iff]
    rintro rfl
    exact hne _ _ _ rfl

theorem readHandleOnly_iff {ps : List Byte} {h : Handle} : readHandleOnly ps = some h ↔ ps = h.bytes := by
  unfold readHandleOnly
  split
  · simp [readHandle_iff, Handle.bytes]
  · next hne =>
    simp only [reduceCtorEq, false_iff]
    rintro rfl
    exact hne _ _ rfl

theorem newTermBytes_length (t : Option Term) : ∃ a b, newTermBytes t = [a, b] := by
  cases t with
  | none => exact ⟨_, _, rfl⟩
  | some t => exact ⟨_, _, rfl⟩

theorem readRenew_iff {ps : List Byte} {h : Handle} {t : Option Term} : readRenew ps = some (h, t) ↔ ps = h.bytes ++ newTermBytes t := by
  unfold readRenew
  split
  · next i g t1 t0 =>
    have hps : [i, g, t1, t0] = h.bytes ++ newTermBytes t
        ↔ (i = BitVec.ofNat 8 h.index.val ∧ g = h.generation.zeroExtend 8) ∧ [t1, t0] = newTermBytes t := by
      simp [Handle.bytes, and_assoc]
    rw [hps]
    simp only [Option.bind_eq_bind, Option.bind_eq_some_iff, Option.some.injEq, Prod.mk.injEq, readHandle_iff, readNewTerm_iff]
    constructor
    · rintro ⟨_, hh, _, ht, rfl, rfl⟩
      exact ⟨hh, ht⟩
    · rintro ⟨hh, ht⟩
      exact ⟨h, hh, t, ht, rfl, rfl⟩
  · next hne =>
    simp only [reduceCtorEq, false_iff]
    rintro rfl
    obtain ⟨a, b, hab⟩ := newTermBytes_length t
    exact hne _ _ a b (by rw [hab]; rfl)

theorem readSetRights_iff {ps : List Byte} {h : Handle} {a b : Bool} :
    readSetRights ps = some (h, a, b) ↔ ps = h.bytes ++ [rightsByte a b] := by
  unfold readSetRights
  split
  · simp only [Option.bind_eq_bind, Option.bind_eq_some_iff, Option.some.injEq, Prod.mk.injEq, readHandle_iff, readRights_iff,
      Handle.bytes, List.cons_append, List.nil_append, List.cons.injEq, and_true]
    constructor
    · rintro ⟨_, ⟨rfl, rfl⟩, _, rfl, rfl, rfl, rfl⟩
      exact ⟨rfl, rfl, rfl⟩
    · rintro ⟨rfl, rfl, rfl⟩
      exact ⟨h, ⟨rfl, rfl⟩, (a, b), rfl, rfl, rfl, rfl⟩
  · next hne =>
    simp only [reduceCtorEq, false_iff]
    rintro rfl
    exact hne _ _ _ rfl

theorem readBindLocal_iff {ps : List Byte} {h : Handle} {b : Option Channel} :
    readBindLocal ps = some (h, b) ↔ ps = h.bytes ++ [baseByte b] := by
  unfold readBindLocal
  split
  · exact handle_byte_iff fun _ _ => readBase_iff
  · next hne =>
    simp only [reduceCtorEq, false_iff]
    rintro rfl
    exact hne _ _ _ rfl

theorem readQuery_iff {ps : List Byte} {h : Handle} {f : Bool} : readQuery ps = some (h, f) ↔ ps = h.bytes ++ [flagByte f] := by
  unfold readQuery
  split
  · exact handle_byte_iff fun _ _ => readFlag_iff
  · next hne =>
    simp only [reduceCtorEq, false_iff]
    rintro rfl
    exact hne _ _ _ rfl

theorem readResolve_iff {ps : List Byte} {n : Stream} : readResolve ps = some n ↔ ps = [n] ∧ n ≠ 0 := by
  unfold readResolve
  split
  · simp [readStream_iff]
  · next hne =>
    simp only [reduceCtorEq, false_iff]
    rintro ⟨rfl, -⟩
    exact hne _ rfl

theorem readNothing_iff {ps : List Byte} : readNothing ps = some () ↔ ps = [] := by
  unfold readNothing
  split
  · simp
  · next hne => simpa using hne

theorem readSetPublishing_iff {ps : List Byte} {m : PublishingMode} {w : Byte} :
    readSetPublishing ps = some (m, w) ↔ ps = [m.code, w] := by
  refine ⟨fun h => ?_, fun h => by rw [h, readSetPublishing_code]⟩
  unfold readSetPublishing at h
  split at h
  · split at h
    · next hm => cases h; rw [hm]; rfl
    · split at h
      · next hm => cases h; rw [hm]; rfl
      · cases h
  · cases h

theorem readReadMember_iff {ps : List Byte} {p : Position} : readReadMember ps = some p ↔ ps = [posByte p] ∧ p ≠ 0 := by
  unfold readReadMember
  split
  · simp [readMemberPosition_iff]
  · next hne =>
    simp only [reduceCtorEq, false_iff]
    rintro ⟨rfl, -⟩
    exact hne _ rfl

theorem readSetExpected_iff {ps : List Byte} {p : Position} {x : Option Expected} : readSetExpected ps = some (p, x) ↔
    p ≠ 0 ∧ ∃ unread : List Byte, unread.length = 3 ∧ ps = expectedParams p x unread := by
  unfold readSetExpected
  split
  · next b f v1 v0 pr =>
    simp only [Option.bind_eq_bind, Option.bind_eq_some_iff, Option.some.injEq, Prod.mk.injEq, readMemberPosition_iff, readFlag_iff]
    constructor
    · rintro ⟨_, ⟨rfl, hp⟩, present, rfl, rfl, rfl⟩
      refine ⟨hp, [v1, v0, pr], rfl, ?_⟩
      cases present
      · rfl
      · have htwo := twoBytes_eq_iff.2 (show v1 ++ v0 = v1 ++ v0 from rfl)
        simp [expectedParams, flagByte, ← htwo]
    · rintro ⟨hp, unread, hlen, hps⟩
      cases x with
      | none =>
        simp only [expectedParams, List.cons_append, List.nil_append, List.cons.injEq] at hps
        obtain ⟨rfl, rfl, rfl⟩ := hps
        exact ⟨p, ⟨rfl, hp⟩, false, rfl, rfl, rfl⟩
      | some x =>
        simp only [expectedParams, twoBytes, List.cons_append, List.nil_append, List.cons.injEq] at hps
        obtain ⟨rfl, rfl, rfl, rfl, rfl, -⟩ := hps
        exact ⟨p, ⟨rfl, hp⟩, true, rfl, rfl, by simp [fieldAt_bytes_append]⟩
  · next hne =>
    simp only [reduceCtorEq, false_iff]
    rintro ⟨-, unread, hlen, rfl⟩
    cases x with
    | none =>
      obtain ⟨a, b, c, rfl⟩ := List.length_eq_three.1 hlen
      exact hne _ _ _ _ _ rfl
    | some x => exact hne _ _ _ _ _ rfl

theorem readSetAdmission_iff {ps : List Byte} {m : AdmissionMode} : readSetAdmission ps = some m ↔ ps = [m.code] := by
  refine ⟨fun h => ?_, fun h => by rw [h]; cases m <;> rfl⟩
  unfold readSetAdmission at h
  split at h
  · split at h
    · next hm => cases h; rw [hm]; rfl
    · split at h
      · next hm => cases h; rw [hm]; rfl
      · split at h
        · next hm => cases h; rw [hm]; rfl
        · cases h
  · cases h

theorem readChainStart_iff {ps : List Byte} {r : Rate} {m n : Nat} : readChainStart ps = some (r, m, n) ↔
    ps = [r.code, BitVec.ofNat 8 m, BitVec.ofNat 8 n] ∧ 2 ≤ m ∧ m ≤ 15 ∧ 2 ≤ n ∧ n ≤ 64 := by
  unfold readChainStart
  split
  · next rb mb nb =>
    simp only [List.cons.injEq, and_true]
    constructor
    · intro h
      split at h
      · next hb =>
        have parts : rb = r.code ∧ m = mb.toNat ∧ n = nb.toNat := by
          split at h
          · next hr => cases h; exact ⟨hr, rfl, rfl⟩
          · split at h
            · next hr => cases h; exact ⟨hr, rfl, rfl⟩
            · cases h
        obtain ⟨rfl, rfl, rfl⟩ := parts
        exact ⟨⟨rfl, by simp, by simp⟩, hb⟩
      · cases h
    · rintro ⟨⟨rfl, hm, hn⟩, h1, h2, h3, h4⟩
      rw [byte_eq_ofNat (by omega)] at hm hn
      rw [if_pos (by omega), hm, hn]
      cases r <;> rfl
  · next hne =>
    simp only [reduceCtorEq, false_iff]
    rintro ⟨rfl, -⟩
    exact hne _ _ _ rfl

/-- Settles O50: each reader reads exactly the bytes that R190 lays out. -/
theorem hostParametersRoundTrip : Obligations.HostParametersRoundTrip :=
  ⟨fun _ _ => readCreate_iff, fun _ _ _ _ => readShape_iff, fun _ _ _ => readHandlePosition_iff, fun _ _ => readHandleOnly_iff,
    fun _ _ _ => readRenew_iff, fun _ _ _ _ => readSetRights_iff, fun _ _ _ => readBindLocal_iff, fun _ _ _ => readQuery_iff,
    fun _ _ => readResolve_iff, fun _ => readNothing_iff, fun _ _ _ => readSetPublishing_iff, fun _ _ => readReadMember_iff,
    fun _ _ _ => readSetExpected_iff, fun _ _ => readSetAdmission_iff, fun _ _ _ _ => readChainStart_iff⟩

end Sys2Proof.Machine
end

section
/-! PROOFS. The chain words, field by field (R186, R188). -/

namespace Sys2Proof.Machine

/-! ## Fields -/

theorem eq_append_iff {m n : Nat} {x : BitVec (m + n)} {a : BitVec m} {b : BitVec n} :
    x = a ++ b ↔ fieldAt x 0 m = a ∧ fieldAt x m n = b := by
  constructor
  · rintro rfl
    exact ⟨by rw [fieldAt_append_left _ _ (by omega), fieldAt_all],
      by rw [fieldAt_append_right _ _ (by omega) (by omega), Nat.sub_self, fieldAt_all]⟩
  · rintro ⟨rfl, rfl⟩
    refine BitVec.eq_of_getLsbD_eq fun i hi => ?_
    simp only [fieldAt, BitVec.getLsbD_append, BitVec.getLsbD_extractLsb']
    by_cases h : i < n
    · simp [h]
    · rw [if_neg h, show m + n - 0 - m + (i - n) = i by omega, show decide (i - n < m) = true from decide_eq_true (by omega), Bool.true_and]

theorem fieldAt_fieldAt {n : Nat} (x : BitVec n) {a m b k : Nat} (h : a + m ≤ n) (h' : b + k ≤ m) :
    fieldAt (fieldAt x a m) b k = fieldAt x (a + b) k := by
  refine BitVec.eq_of_getLsbD_eq fun i hi => ?_
  simp only [fieldAt, BitVec.getLsbD_extractLsb', hi, decide_true, Bool.true_and]
  rw [decide_eq_true (by omega), Bool.true_and]
  congr 1
  omega

theorem fieldAt_one {n : Nat} {x : BitVec n} {k : Nat} (h : k < n) : fieldAt x k 1 = flagBit (bitAt x k) := by
  refine BitVec.eq_of_getLsbD_eq fun i hi => ?_
  obtain rfl : i = 0 := by omega
  simp only [fieldAt, bitAt, flagBit, BitVec.getLsbD_extractLsb', BitVec.getMsbD]
  simp [h]
  congr 1
  omega

theorem flagBit_inj {a b : Bool} : flagBit a = flagBit b ↔ a = b := by revert a b; decide

/-- One bit of a word is the flag. -/
theorem fieldAt_flag_iff {n : Nat} {x : BitVec n} {k : Nat} (h : k < n) {b : Bool} : fieldAt x k 1 = flagBit b ↔ bitAt x k = b := by
  rw [fieldAt_one h, flagBit_inj]

theorem fieldAt_direction_iff {n : Nat} {x : BitVec n} {k : Nat} (h : k < n) {d : Direction} :
    fieldAt x k 1 = d.bit ↔ (if bitAt x k then Direction.up else Direction.down) = d := by
  rw [fieldAt_one h]
  cases bitAt x k <;> cases d <;> decide

theorem positionOf_iff {b : BitVec 4} {p : Position} : positionOf b = p ↔ b = posBits p := by
  unfold positionOf posBits
  rw [Fin.ext_iff, ← BitVec.toNat_inj, BitVec.toNat_ofNat, Nat.mod_eq_of_lt p.isLt]
  rfl

theorem countOf_iff {b : BitVec 3} {n : Nat} : countOf b = n ↔ b = countBits n ∧ 1 ≤ n ∧ n ≤ 8 := by
  unfold countOf countBits
  rw [← BitVec.toNat_inj, BitVec.toNat_ofNat]
  have := b.isLt
  omega

theorem Width.ofCode_iff {b : BitVec 3} {w : Width} : Width.ofCode b.toNat = some w ↔ b = w.code := by
  refine ⟨fun h => ?_, fun h => by rw [h, Width.ofCode_code]⟩
  unfold Width.ofCode at h
  refine BitVec.eq_of_toNat_eq ?_
  split at h <;> cases h <;> assumption

theorem Handle.eq_bits_iff {b : BitVec 11} {h : Handle} : b = h.bits ↔ (⟨(fieldAt b 0 7).toFin, fieldAt b 7 4⟩ : Handle) = h := by
  constructor
  · rintro rfl
    rw [Handle.fieldAt_index, Handle.fieldAt_generation]
  · rintro rfl
    unfold Handle.bits
    exact (eq_append_iff (m := 7) (n := 4)).2 ⟨BitVec.eq_of_toNat_eq (by simp), rfl⟩

/-! ## The payloads of member requests (R188) -/

theorem handlePayload_iff {x : BitVec 40} {op : BitVec 3} {h : Handle} {unread : BitVec 26} : x = handlePayload op h unread
    ↔ fieldAt x 0 3 = op ∧ (⟨(fieldAt x 3 7).toFin, fieldAt x 10 4⟩ : Handle) = h ∧ fieldAt x 14 26 = unread := by
  unfold handlePayload
  rw [eq_append_iff (m := 14) (n := 26), eq_append_iff (m := 3) (n := 11), Handle.eq_bits_iff]
  simp only [fieldAt_fieldAt, Nat.reduceAdd, Nat.reduceLeDiff, and_assoc]

theorem shapePayload_iff {x : BitVec 40} {h : Handle} {w : Width} {n : Nat} {unread : BitVec 20} : x = shapePayload h w n unread
    ↔ fieldAt x 0 3 = 2 ∧ (⟨(fieldAt x 3 7).toFin, fieldAt x 10 4⟩ : Handle) = h ∧ fieldAt x 14 3 = w.code
      ∧ fieldAt x 17 3 = countBits n ∧ fieldAt x 20 20 = unread := by
  unfold shapePayload
  rw [eq_append_iff (m := 20) (n := 20), eq_append_iff (m := 17) (n := 3), eq_append_iff (m := 14) (n := 3),
    eq_append_iff (m := 3) (n := 11), Handle.eq_bits_iff]
  simp only [fieldAt_fieldAt, Nat.reduceAdd, Nat.reduceLeDiff, and_assoc]

theorem streamPayload_iff {x : BitVec 40} {n : Stream} {unread : BitVec 29} : x = streamPayload n unread
    ↔ fieldAt x 0 3 = 7 ∧ fieldAt x 3 8 = n ∧ fieldAt x 11 29 = unread := by
  unfold streamPayload
  rw [eq_append_iff (m := 11) (n := 29), eq_append_iff (m := 3) (n := 8)]
  simp only [fieldAt_fieldAt, Nat.reduceAdd, Nat.reduceLeDiff, and_assoc]

theorem createPayload_iff {x : BitVec 40} {f : CreateFields} {unread : BitVec 10} : x = createPayload f unread
    ↔ fieldAt x 0 3 = 1 ∧ fieldAt x 3 8 = f.stream ∧ fieldAt x 11 1 = f.direction.bit ∧ fieldAt x 12 3 = f.width.code
      ∧ fieldAt x 15 3 = countBits f.count ∧ fieldAt x 18 1 = flagBit f.listenOpen ∧ fieldAt x 19 1 = flagBit f.shapeOpen
      ∧ fieldAt x 20 10 = f.term ∧ fieldAt x 30 10 = unread := by
  unfold createPayload
  rw [eq_append_iff (m := 30) (n := 10), eq_append_iff (m := 20) (n := 10), eq_append_iff (m := 19) (n := 1),
    eq_append_iff (m := 18) (n := 1), eq_append_iff (m := 15) (n := 3), eq_append_iff (m := 12) (n := 3),
    eq_append_iff (m := 11) (n := 1), eq_append_iff (m := 3) (n := 8)]
  simp only [fieldAt_fieldAt, Nat.reduceAdd, Nat.reduceLeDiff, and_assoc]

/-- A member CREATE reads exactly what the member laid out, and what R54 adds. -/
theorem QueueEntry.create_iff {e : QueueEntry} {f : CreateFields} (ho : e.operation = 1) : e.create = some f ↔
    (∃ unread, e.payload = createPayload f unread) ∧ f.stream ≠ 0 ∧ 1 ≤ f.count ∧ f.count ≤ 8
      ∧ f.source = e.position ∧ f.listeners = 0 ∧ f.base = none := by
  unfold QueueEntry.operation at ho
  simp only [createPayload_iff, ho, true_and, fieldAt_direction_iff (show 11 < 40 by omega), fieldAt_flag_iff (show 18 < 40 by omega),
    fieldAt_flag_iff (show 19 < 40 by omega)]
  simp only [QueueEntry.create, Option.bind_eq_bind, Option.bind_eq_some_iff, Option.some.injEq, readStream_iff, Width.ofCode_iff]
  constructor
  · rintro ⟨_, ⟨rfl, hst⟩, w, hw, rfl⟩
    obtain ⟨hcount, h1, h8⟩ := countOf_iff.1 (rfl : countOf (fieldAt e.payload 15 3) = _)
    exact ⟨⟨_, rfl, rfl, hw, hcount, rfl, rfl, rfl, rfl⟩, hst, h1, h8, rfl, rfl, rfl⟩
  · rintro ⟨⟨_, hst, hd, hw, hcount, hl, hs, ht, rfl⟩, h0, h1, h8, hsrc, hlis, hbase⟩
    refine ⟨f.stream, ⟨hst, h0⟩, f.width, hw, ?_⟩
    rw [hd, hl, hs, ht, countOf_iff.2 ⟨hcount, h1, h8⟩, ← hsrc, ← hlis, ← hbase]

theorem QueueEntry.shape_iff {e : QueueEntry} {h : Handle} {w : Width} {n : Nat} (ho : e.operation = 2) :
    e.handle = h ∧ e.shape = some (w, n) ↔ (∃ unread, e.payload = shapePayload h w n unread) ∧ 1 ≤ n ∧ n ≤ 8 := by
  unfold QueueEntry.operation at ho
  simp only [shapePayload_iff, ho, true_and, QueueEntry.shape, QueueEntry.handle, Option.bind_eq_bind, Option.bind_eq_some_iff,
    Option.some.injEq, Prod.mk.injEq, Width.ofCode_iff, countOf_iff]
  constructor
  · rintro ⟨hh, w', hw, rfl, hn, h1, h8⟩
    exact ⟨⟨_, hh, hw, hn, rfl⟩, h1, h8⟩
  · rintro ⟨⟨_, hh, hw, hn, rfl⟩, h1, h8⟩
    exact ⟨hh, w, hw, rfl, hn, h1, h8⟩

theorem QueueEntry.handle_iff {e : QueueEntry} {operation : BitVec 3} {h : Handle} :
    e.operation = operation ∧ e.handle = h ↔ ∃ unread, e.payload = handlePayload operation h unread := by
  simp only [handlePayload_iff, QueueEntry.operation, QueueEntry.handle]
  exact ⟨fun ⟨ho, hh⟩ => ⟨_, ho, hh, rfl⟩, fun ⟨_, ho, hh, _⟩ => ⟨ho, hh⟩⟩

theorem QueueEntry.stream_iff {e : QueueEntry} {n : Stream} (ho : e.operation = 7) :
    e.stream = some n ↔ n ≠ 0 ∧ ∃ unread, e.payload = streamPayload n unread := by
  unfold QueueEntry.operation at ho
  simp only [streamPayload_iff, ho, true_and, QueueEntry.stream, readStream_iff]
  exact ⟨fun ⟨hn, h0⟩ => ⟨h0, _, hn, rfl⟩, fun ⟨h0, _, hn, _⟩ => ⟨hn, h0⟩⟩

/-! ## The response word (R146, R188) -/

theorem chainWord_iff {w : ChainWord} {b : BitVec 56} : w = chainWord b ↔ fieldAt w 0 56 = b ∧ fieldAt w 56 8 = crc8 (bodyBytes b) := by
  unfold chainWord
  exact eq_append_iff (m := 56) (n := 8)

theorem wordSound_iff {w : ChainWord} : wordSound w = true ↔ bitAt w 0 = true ∧ fieldAt w 56 8 = crc8 (bodyBytes (fieldAt w 0 56)) := by
  simp [wordSound, wordPresent]

/-- A sound word is the one that its fields lay out, and the only one. -/
theorem responseWordOf_iff {w : ChainWord} {ack request join : Bool} {echo : Position} {epoch : Epoch} {payload : BitVec 40} :
    w = responseWordOf ack request join echo epoch payload ↔ wordSound w = true ∧ wordAck w = ack ∧ wordRequest w = request
      ∧ wordJoin w = join ∧ wordEcho w = echo ∧ wordEpoch w = epoch ∧ wordPayload w = payload := by
  have body : fieldAt w 0 56 = flagBit true ++ flagBit ack ++ flagBit request ++ flagBit join ++ posBits echo ++ epoch ++ payload
      ↔ bitAt w 0 = true ∧ wordAck w = ack ∧ wordRequest w = request ∧ wordJoin w = join ∧ wordEcho w = echo ∧ wordEpoch w = epoch
        ∧ wordPayload w = payload := by
    rw [eq_append_iff (m := 16) (n := 40), eq_append_iff (m := 8) (n := 8), eq_append_iff (m := 4) (n := 4), eq_append_iff (m := 3) (n := 1),
      eq_append_iff (m := 2) (n := 1), eq_append_iff (m := 1) (n := 1)]
    simp only [fieldAt_fieldAt, Nat.reduceAdd, Nat.reduceLeDiff, and_assoc, fieldAt_flag_iff (show 0 < 64 by omega),
      fieldAt_flag_iff (show 1 < 64 by omega), fieldAt_flag_iff (show 2 < 64 by omega), fieldAt_flag_iff (show 3 < 64 by omega),
      wordAck, wordRequest, wordJoin, wordEcho, wordEpoch, wordPayload, positionOf_iff]
  unfold responseWordOf
  rw [chainWord_iff, wordSound_iff]
  constructor
  · rintro ⟨hbody, hcrc⟩
    rw [← hbody] at hcrc
    obtain ⟨h0, hrest⟩ := body.1 hbody
    exact ⟨⟨h0, hcrc⟩, hrest⟩
  · rintro ⟨⟨h0, hcrc⟩, hrest⟩
    have hbody := body.2 ⟨h0, hrest⟩
    exact ⟨hbody, hbody ▸ hcrc⟩

theorem identityPayload_iff {x : BitVec 40} {d : Identity} : x = identityPayload d ↔ fieldAt x 0 16 = d.vendor ∧ fieldAt x 16 8 = d.product
    ∧ fieldAt x 24 8 = d.revision ∧ fieldAt x 32 4 = d.sourceLimit ∧ fieldAt x 36 4 = d.listenLimit := by
  unfold identityPayload
  rw [eq_append_iff (m := 36) (n := 4), eq_append_iff (m := 32) (n := 4), eq_append_iff (m := 24) (n := 8), eq_append_iff (m := 16) (n := 8)]
  simp only [fieldAt_fieldAt, Nat.reduceAdd, Nat.reduceLeDiff, and_assoc]

theorem joinIdentity_responseWordOf (ack request : Bool) (t : Position) (epoch : Epoch) (d : Identity) :
    joinIdentity (responseWordOf ack request true t epoch (identityPayload d)) = d := by
  obtain ⟨-, -, -, -, -, -, hp⟩ := responseWordOf_iff.1 (rfl : responseWordOf ack request true t epoch (identityPayload d) = _)
  obtain ⟨hv, hpr, hr, hs, hl⟩ := identityPayload_iff.1 (rfl : identityPayload d = _)
  simp only [joinIdentity, hp, hv, hpr, hr, hs, hl]

/-- Settles O51: each layout is the only word with its fields. -/
theorem responseWordsRoundTrip : Obligations.ResponseWordsRoundTrip :=
  ⟨fun _ _ => QueueEntry.create_iff, fun _ _ _ _ => QueueEntry.shape_iff, fun _ _ _ => QueueEntry.handle_iff, fun _ _ => QueueEntry.stream_iff,
    fun _ _ _ _ _ _ => responseWordOf_iff.1 rfl, fun _ h => responseWordOf_iff.2 ⟨h, rfl, rfl, rfl, rfl, rfl, rfl⟩,
    joinIdentity_responseWordOf⟩

end Sys2Proof.Machine
end

section
/-! PROOFS. The control message, field by field (R85, R186, R187). -/

namespace Sys2Proof.Machine

/-- A control word says kind, target, epoch and payload, under its check byte. -/
theorem controlWord_fields (kind : BitVec 3) (target : Position) (e : Epoch) (y : BitVec 41) :
    fieldAt (controlWord kind target e y) 0 3 = kind ∧ (fieldAt (controlWord kind target e y) 3 4).toNat = target.val
      ∧ fieldAt (controlWord kind target e y) 7 8 = e ∧ fieldAt (controlWord kind target e y) 15 41 = y
      ∧ fieldAt (controlWord kind target e y) 56 8 = crc8 (bodyBytes (fieldAt (controlWord kind target e y) 0 56)) := by
  obtain ⟨hbody, hcrc⟩ := chainWord_iff.1 (rfl : controlWord kind target e y = _)
  rw [← hbody] at hcrc
  rw [eq_append_iff (m := 15) (n := 41), eq_append_iff (m := 7) (n := 8), eq_append_iff (m := 3) (n := 4)] at hbody
  simp only [fieldAt_fieldAt, Nat.reduceAdd, Nat.reduceLeDiff, and_assoc] at hbody
  obtain ⟨hk, ht, he, hy⟩ := hbody
  refine ⟨hk, ?_, he, hy, hcrc⟩
  rw [ht, posBits, BitVec.toNat_ofNat, Nat.mod_eq_of_lt target.isLt]

theorem toNat_of_eq_posBits {b : BitVec 4} {p : Position} (h : b = posBits p) : b.toNat = p.val := by
  rw [h, posBits, BitVec.toNat_ofNat, Nat.mod_eq_of_lt p.isLt]

/-- The index and the generation in a run of bits that holds a handle. -/
theorem handle_fields {n k : Nat} {y : BitVec n} {h : Handle} (hk : k + 11 ≤ n) (hy : fieldAt y k 11 = h.bits) :
    (fieldAt y k 7).toNat = h.index.val ∧ fieldAt y (k + 7) 4 = h.generation := by
  have hb := Handle.eq_bits_iff.1 hy
  rw [fieldAt_fieldAt y hk (by omega), fieldAt_fieldAt y hk (by omega)] at hb
  exact ⟨congrArg (fun h : Handle => h.index.val) hb, congrArg Handle.generation hb⟩

theorem answerPayload_fields (op : BitVec 3) (st : BitVec 4) (overrun : Bool) (h : Handle) (result : BitVec 22) :
    let y : BitVec 41 := op ++ st ++ flagBit overrun ++ h.bits ++ result
    fieldAt y 0 3 = op ∧ fieldAt y 3 4 = st ∧ bitAt y 7 = overrun ∧ (fieldAt y 8 7).toNat = h.index.val
      ∧ fieldAt y 15 4 = h.generation ∧ fieldAt y 19 22 = result := by
  intro y
  have hy : y = op ++ st ++ flagBit overrun ++ h.bits ++ result := rfl
  rw [eq_append_iff (m := 19) (n := 22), eq_append_iff (m := 8) (n := 11), eq_append_iff (m := 7) (n := 1), eq_append_iff (m := 3) (n := 4)] at hy
  simp only [fieldAt_fieldAt, Nat.reduceAdd, Nat.reduceLeDiff, and_assoc] at hy
  obtain ⟨hop, hst, ho, hh, hr⟩ := hy
  obtain ⟨hi, hg⟩ := handle_fields (by omega) hh
  exact ⟨hop, hst, (fieldAt_flag_iff (by omega)).1 ho, hi, hg, hr⟩

theorem assignPayload_fields (p : Position) (n : FrameNumber) :
    let y : BitVec 41 := posBits p ++ n ++ (0 : BitVec 5)
    (fieldAt y 0 4).toNat = p.val ∧ fieldAt y 4 32 = n ∧ fieldAt y 36 5 = 0 := by
  intro y
  have hy : y = posBits p ++ n ++ (0 : BitVec 5) := rfl
  rw [eq_append_iff (m := 36) (n := 5), eq_append_iff (m := 4) (n := 32)] at hy
  simp only [fieldAt_fieldAt, Nat.reduceAdd, Nat.reduceLeDiff, and_assoc] at hy
  obtain ⟨hp, hn, h0⟩ := hy
  exact ⟨toNat_of_eq_posBits hp, hn, h0⟩

theorem switchPayload_fields (n : Epoch) (f : FrameNumber) :
    let y : BitVec 41 := n ++ f ++ (0 : BitVec 1)
    fieldAt y 0 8 = n ∧ fieldAt y 8 32 = f ∧ fieldAt y 40 1 = 0 := by
  intro y
  have hy : y = n ++ f ++ (0 : BitVec 1) := rfl
  rw [eq_append_iff (m := 40) (n := 1), eq_append_iff (m := 8) (n := 32)] at hy
  simpa only [fieldAt_fieldAt, Nat.reduceAdd, Nat.reduceLeDiff, and_assoc] using hy

theorem openCallPayload_fields (t : Position) :
    let y : BitVec 41 := posBits t ++ (0 : BitVec 37)
    (fieldAt y 0 4).toNat = t.val ∧ fieldAt y 4 37 = 0 := by
  intro y
  obtain ⟨ht, h0⟩ := (eq_append_iff (m := 4) (n := 37)).1 (rfl : y = posBits t ++ (0 : BitVec 37))
  exact ⟨toNat_of_eq_posBits ht, h0⟩

theorem noticePayload_fields (h : Handle) (st : Stream) (r : Role) (d : Direction) (w : Width) (n : Nat) (o : Option Nat) :
    let y : BitVec 41 := h.bits ++ st ++ r.bits ++ d.bit ++ w.code ++ countBits n ++ offsetBits o ++ (0 : BitVec 4)
    ((fieldAt y 0 7).toNat = h.index.val ∧ fieldAt y 7 4 = h.generation ∧ fieldAt y 11 8 = st ∧ (bitAt y 21 = true ↔ d = .up)
      ∧ fieldAt y 37 4 = 0)
    ∧ fieldAt y 19 2 = r.bits ∧ fieldAt y 22 3 = w.code ∧ (1 ≤ n → n ≤ 8 → (fieldAt y 25 3).toNat = n - 1)
    ∧ fieldAt y 28 9 = offsetBits o := by
  intro y
  have hy : y = h.bits ++ st ++ r.bits ++ d.bit ++ w.code ++ countBits n ++ offsetBits o ++ (0 : BitVec 4) := rfl
  rw [eq_append_iff (m := 37) (n := 4), eq_append_iff (m := 28) (n := 9), eq_append_iff (m := 25) (n := 3), eq_append_iff (m := 22) (n := 3),
    eq_append_iff (m := 21) (n := 1), eq_append_iff (m := 19) (n := 2), eq_append_iff (m := 11) (n := 8)] at hy
  simp only [fieldAt_fieldAt, Nat.reduceAdd, Nat.reduceLeDiff, and_assoc] at hy
  obtain ⟨hh, hst, hr, hd, hw, hn, ho, h0⟩ := hy
  obtain ⟨hi, hg⟩ := handle_fields (by omega) hh
  refine ⟨⟨hi, hg, hst, ?_, h0⟩, hr, hw, fun h1 h8 => ?_, ho⟩
  · rw [← (fieldAt_direction_iff (by omega)).1 hd]
    cases bitAt y 21 <;> simp
  · rw [hn, countBits, BitVec.toNat_ofNat]
    omega

/-- A NOTICE of a delta says the lease, and the role and shape of the delta for the member (R85). -/
theorem State.noticeBits_eq {s : State} {set : ChangeSet} {n : Notice} {d : Delta} {l : Lease} (hd : set.deltas[n.delta]? = some d)
    (hl : s.leases[d.handle.index] = ⟨d.handle.generation, some l⟩) : s.noticeBits set n
      = noticeWord s.publisher.epoch n.position d.handle l.stream (roleOf d l n.position) l.direction (shapeOf d l n.position).1
        (shapeOf d l n.position).2.1 (shapeOf d l n.position).2.2 := by
  have hlease : s.lease? d.handle.index = some l := State.lease?_of_entry hl
  unfold State.noticeBits
  simp only [hd, hlease]

/-- Settles O40: every control message is a `controlWord`, and its payload a run of fields. -/
theorem controlMessageLayout : Obligations.ControlMessageLayout := by
  unfold Obligations.ControlMessageLayout
  refine ⟨fun e => controlWord_fields .., fun e p => controlWord_fields .., fun e p a => ⟨_, controlWord_fields .., answerPayload_fields ..⟩,
    fun e p n => ⟨_, controlWord_fields .., assignPayload_fields ..⟩, fun e n f => ⟨_, controlWord_fields .., switchPayload_fields ..⟩,
    fun e t => ⟨_, controlWord_fields .., openCallPayload_fields ..⟩, fun s set n d l hd hl => ?_⟩
  rw [State.noticeBits_eq hd hl]
  obtain ⟨⟨hi, hg, hst, hdir, h0⟩, hr, hw, hn, ho⟩ := noticePayload_fields d.handle l.stream (roleOf d l n.position) l.direction
    (shapeOf d l n.position).1 (shapeOf d l n.position).2.1 (shapeOf d l n.position).2.2
  refine ⟨_, controlWord_fields .., hi, hg, hst, hdir, h0, fun c hc => ⟨?_, ?_, fun hsrc => ?_, fun hsrc hlis => ?_, fun hsrc hlis => ?_⟩,
    fun cause hc => ⟨?_, ?_, ?_, ?_⟩⟩
  · exact hw.trans (by simp [shapeOf, hc])
  · have hcount : (shapeOf d l n.position).2.1 = c.count := by simp [shapeOf, hc]
    exact fun h1 h8 => (hn (hcount ▸ h1) (hcount ▸ h8)).trans (by rw [hcount])
  · exact ⟨hr.trans (by simp [roleOf, hc, hsrc, Role.bits]), ho.trans (by simp [shapeOf, roleOf, hc, hsrc])⟩
  · exact ⟨hr.trans (by simp [roleOf, hc, hsrc, hlis, Role.bits]), ho.trans (by simp [shapeOf, roleOf, hc, hsrc, hlis])⟩
  · exact ⟨hr.trans (by simp [roleOf, hc, hsrc, hlis, Role.bits]), ho.trans (by simp [shapeOf, roleOf, hc, hsrc, hlis]; rfl)⟩
  · exact hr.trans (by simp [roleOf, hc, Role.bits])
  · exact hw.trans (by simp [shapeOf, hc])
  · exact ho.trans (by simp [shapeOf, hc]; rfl)
  · have hcount : (shapeOf d l n.position).2.1 = l.active.count := by simp [shapeOf, hc]
    exact fun h1 h8 => (hn (hcount ▸ h1) (hcount ▸ h8)).trans (by rw [hcount])

end Sys2Proof.Machine
end

section
/-! PROOFS. The check byte as a remainder of polynomials over the field of two elements (R185). -/

namespace Sys2Proof.Machine

open Polynomial

/-- The generator of the check byte. -/
noncomputable def generator : Polynomial (ZMod 2) := X ^ 8 + X ^ 2 + X + 1

theorem bytePolynomial_xor (a b : Byte) : bytePolynomial (a ^^^ b) = bytePolynomial a + bytePolynomial b := by
  have bit (x y : Bool) (p : Polynomial (ZMod 2)) : (if (x ^^ y) = true then p else 0) = (if x = true then p else 0) + if y = true then p else 0 := by
    cases x <;> cases y <;> simp [CharTwo.add_self_eq_zero]
  simp only [bytePolynomial, BitVec.getLsbD_xor, bit, List.sum_map_add]

theorem bytePolynomial_expand (b : Byte) : bytePolynomial b = (if b.getLsbD 0 then 1 else 0) + (if b.getLsbD 1 then X else 0)
    + (if b.getLsbD 2 then X ^ 2 else 0) + (if b.getLsbD 3 then X ^ 3 else 0) + (if b.getLsbD 4 then X ^ 4 else 0)
    + (if b.getLsbD 5 then X ^ 5 else 0) + (if b.getLsbD 6 then X ^ 6 else 0) + if b.getLsbD 7 then X ^ 7 else 0 := by
  simp only [bytePolynomial, List.range, List.range.loop, List.map_cons, List.map_nil, List.sum_cons, List.sum_nil, pow_zero, pow_one, add_zero]
  ring

/-- The seven lower bits move up one place, and the highest becomes x^8. -/
theorem bytePolynomial_mul_X (b : Byte) : bytePolynomial b * X = bytePolynomial (b <<< 1) + if b.msb then X ^ 8 else 0 := by
  have bits : ∀ k, k < 7 → (b <<< 1).getLsbD (k + 1) = b.getLsbD k := fun k hk => by
    simp only [BitVec.getLsbD_shiftLeft]
    simp [show k + 1 < 8 by omega]
  have low : (b <<< 1).getLsbD 0 = false := by simp
  rw [bytePolynomial_expand, bytePolynomial_expand, low, bits 0 (by omega), bits 1 (by omega), bits 2 (by omega), bits 3 (by omega),
    bits 4 (by omega), bits 5 (by omega), bits 6 (by omega), show b.msb = b.getLsbD 7 from by simp [BitVec.msb_eq_getLsbD_last]]
  simp only [add_mul, ite_mul, zero_mul, one_mul, Bool.false_eq_true, if_false, zero_add, ← pow_succ, Nat.reduceAdd]
  ring_nf

/-- One shift is one multiplication by x, up to a multiple of the generator. -/
theorem generator_dvd_shift (c : Byte) : generator ∣ bytePolynomial c * X - bytePolynomial (crcShift c) := by
  rw [bytePolynomial_mul_X, crcShift]
  split
  · next h =>
    have seven : bytePolynomial 7 = X ^ 2 + X + 1 := by
      rw [bytePolynomial_expand]
      simp
      ring
    rw [bytePolynomial_xor, seven]
    refine ⟨1, ?_⟩
    have two : (2 : Polynomial (ZMod 2)) = 0 := CharTwo.two_eq_zero
    unfold generator
    linear_combination (-(X ^ 2 + X + 1) : Polynomial (ZMod 2)) * two
  · next h => simp

theorem generator_dvd_mul_X {p : Polynomial (ZMod 2)} {c : Byte} (h : generator ∣ p - bytePolynomial c) :
    generator ∣ p * X - bytePolynomial (crcShift c) := by
  have hsum : p * X - bytePolynomial (crcShift c) = (p - bytePolynomial c) * X + (bytePolynomial c * X - bytePolynomial (crcShift c)) := by ring
  rw [hsum]
  exact dvd_add (h.mul_right X) (generator_dvd_shift c)

/-- A byte more is eight shifts (R185). -/
theorem generator_dvd_byte {p : Polynomial (ZMod 2)} {c : Byte} (h : generator ∣ p - bytePolynomial c) (b : Byte) :
    generator ∣ (p + bytePolynomial b) * X ^ 8 - bytePolynomial (crcByte c b) := by
  have h0 : generator ∣ p + bytePolynomial b - bytePolynomial (c ^^^ b) := by
    rw [bytePolynomial_xor, add_sub_add_right_eq_sub]
    exact h
  have h8 := generator_dvd_mul_X (generator_dvd_mul_X (generator_dvd_mul_X (generator_dvd_mul_X (generator_dvd_mul_X
    (generator_dvd_mul_X (generator_dvd_mul_X (generator_dvd_mul_X h0)))))))
  rw [show (p + bytePolynomial b) * X ^ 8 = (p + bytePolynomial b) * X * X * X * X * X * X * X * X by ring]
  exact h8

theorem generator_dvd_message (bs : List Byte) : generator ∣ messagePolynomial bs * X ^ 8 - bytePolynomial (crc8 bs) := by
  induction bs using List.reverseRecOn with
  | nil => simp [messagePolynomial, crc8, bytePolynomial]
  | append_singleton bs b ih =>
    have hm : messagePolynomial (bs ++ [b]) = messagePolynomial bs * X ^ 8 + bytePolynomial b := by simp [messagePolynomial]
    have hc : crc8 (bs ++ [b]) = crcByte (crc8 bs) b := by simp [crc8]
    rw [hm, hc]
    exact generator_dvd_byte ih b

/-- Settles O10: by induction on the run of bytes, each of its bits a multiplication by x. -/
theorem checkByteIsThePolynomialRemainder : Obligations.CheckByteIsThePolynomialRemainder := by
  unfold Obligations.CheckByteIsThePolynomialRemainder
  refine ⟨fun bs => ?_, by decide +kernel, by decide +kernel⟩
  obtain ⟨q, hq⟩ := generator_dvd_message bs
  refine ⟨q, ?_⟩
  rw [mul_comm q]
  exact sub_eq_iff_eq_add.1 hq

end Sys2Proof.Machine
end

section
/-! PROOFS. The shrink rule (R34): a configuration within the latest one fits where the latest one is. -/

namespace Sys2Proof.Machine

/-- A run of a smaller cost and span at the same offset lies within the other (R24, R25). -/
theorem Configuration.runAt_inside {c c' : Configuration} {d : Direction} {source : Position} (o : Nat) (hcost : c'.cost ≤ c.cost)
    (hfirst : (spanOf d source c.listeners).1 ≤ (spanOf d source c'.listeners).1)
    (hend : (spanOf d source c'.listeners).2 ≤ (spanOf d source c.listeners).2) :
    (c'.runAt d source o).Inside (c.runAt d source o) := by
  rintro hop bit ⟨h1, h2, h3, h4⟩
  simp only [Configuration.runAt] at h1 h2 h3 h4
  exact ⟨hfirst.trans h1, lt_of_lt_of_le h2 hend, h3, by simp only [Configuration.runAt]; omega⟩

/-- The offset tried first is given when the configuration fits there (R33). -/
theorem State.placeFor_tried {s : State} {i : LeaseIndex} {d : Direction} {source : Position} {c : Configuration} {o : Nat}
    (hl : c.listeners ≠ 0) (hf : s.FitsAt i d source c o) :
    s.placeFor i d source c (some o) = some { c with placement := some o } := by
  simp only [State.placeFor, hl, if_false, placeFrom, State.fitsAmong_iff.2 hf, if_true]

/-- A lawful lease that is not GOING claims the run of its placed latest configuration, within the region (R28). -/
theorem Lease.Lawful.latest_claims {l : Lease} {o : Nat} (h : l.Lawful) (hg : l.state ≠ .going) (ho : l.latest.placement = some o) :
    l.latest.runAt l.direction l.source o ∈ l.claims ∧ o + l.latest.cost ≤ 440 := by
  have hlat := h.latest
  exact ⟨Lease.mem_claims.2 ⟨_, Lease.latest_claiming (h.sealed_ne hg),
    Configuration.run?_some.2 ⟨(hlat.placed).1 (by simp [ho]), o, ho, rfl⟩⟩, hlat.within o ho⟩

/-- Settles O49: the run lies within one that the lease claims, and claims of other leases are apart from that one. -/
theorem shrinkingKeepsTheOffset : Obligations.ShrinkingKeepsTheOffset := by
  unfold Obligations.ShrinkingKeepsTheOffset
  intro s i l c o htab hlay hl hg ho hc hcost hfirst hend
  obtain ⟨hclaim, hin⟩ := (htab.leases i l hl).latest_claims hg ho
  have hfits : s.FitsAt i l.direction l.source c o := by
    refine ⟨by omega, fun j m hj hm hd r hr => ?_⟩
    exact (hlay.claims i j l m (Ne.symm hj) hl hm hd.symm _ hclaim r hr).inside (Configuration.runAt_inside o hcost hfirst hend) (.refl r)
  exact ⟨hfits, State.placeFor_tried hc hfits⟩

end Sys2Proof.Machine
end

section
/-! PROOFS. The Request Engine as a whole: one command for each request, how every request is answered, and the target
and lease-state steps (R42 to R48, R69, R70, R190). -/

namespace Sys2Proof.Machine

/-! ## What a request can answer -/

/-- A status that an answer with result fields carries (R69). -/
def Status.Grants (st : Status) : Prop := st = .done ∨ st = .staged

/-- A status that a request refused at some step is answered with (R45, R69). -/
def Status.Refuses (st : Status) : Prop := st ≠ .none ∧ st ≠ .done ∧ st ≠ .staged

theorem Status.Grants.ne_none {st : Status} (h : st.Grants) : st ≠ .none := by rcases h with rfl | rfl <;> decide
theorem Status.Grants.carries {st : Status} (h : st.Grants) : st.carriesResult = true := by rcases h with rfl | rfl <;> rfl
theorem Status.Refuses.not_grants {st : Status} (h : st.Refuses) : ¬st.Grants := fun hg => hg.elim h.2.1 h.2.2

/-- The outcome of a step: what passed satisfies the predicate, what failed is a refusal. -/
def Answers {α : Type} (P : α → Prop) : Except Status α → Prop
  | .ok a => P a
  | .error st => st.Refuses

section
variable {α : Type} {P : α → Prop}

@[simp] theorem answers_ok (a : α) : Answers P (.ok a) ↔ P a := Iff.rfl
@[simp] theorem answers_error (st : Status) : Answers P (.error st) ↔ st.Refuses := Iff.rfl

theorem Answers.of_ok {r : Except Status α} (h : Answers P r) {a : α} (ha : r = .ok a) : P a := by subst ha; exact h
theorem Answers.of_error {r : Except Status α} (h : Answers P r) {st : Status} (hst : r = .error st) : st.Refuses := by subst hst; exact h

end

/-! ## The requests on leases -/

section
variable (s : State)

theorem State.target_answers (h : Handle) (a b : Bool) : Answers (fun _ => True) (s.target h a b) := by
  unfold State.target
  repeat' split
  all_goals simp [Status.Refuses]

theorem State.channelCheck_answers (mine : LeaseIndex → Bool) (b n : Nat) : Answers (fun _ => True) (s.channelCheck mine b n) := by
  unfold State.channelCheck
  repeat' split
  all_goals simp [Status.Refuses]

theorem State.createChannels_answers (f : CreateFields) : Answers (fun _ => True) (s.createChannels f) := by
  unfold State.createChannels
  split
  · trivial
  · split
    · exact s.channelCheck_answers _ _ _
    · simp [Status.Refuses]

theorem State.shapeChannels_answers (i : LeaseIndex) (l : Lease) (c : Configuration) :
    Answers (fun _ => True) (s.shapeChannels i l c) := by
  unfold State.shapeChannels
  split
  · trivial
  · exact s.channelCheck_answers _ _ _

theorem adoptStatus_grants (l : Lease) (c : Configuration) : (adoptStatus l c).Grants := by
  unfold adoptStatus Status.Grants
  split <;> simp

theorem retireRequest_grants (e : Entry) (l : Lease) (who : Position) : (retireRequest e l who).2.Grants := by
  unfold retireRequest Status.Grants
  split
  · dsimp only
    split <;> simp
  · simp
  · simp

theorem State.createIn_answers (owner : Position) (f : CreateFields) :
    Answers (fun a => a.status.Grants) (s.createIn owner f) := by
  unfold State.createIn
  dsimp only
  repeat' split
  all_goals simp [Status.Refuses, Status.Grants]

theorem State.createLease_answers (owner : Position) (f : CreateFields) :
    Answers (fun a => a.status.Grants) (s.createLease owner f) := by
  unfold State.createLease
  repeat' split
  case h_1 st hst => exact (s.createChannels_answers f).of_error hst
  case isFalse => exact s.createIn_answers owner f
  all_goals simp [Status.Refuses]

theorem State.shapeLease_answers (who : Position) (h : Handle) (w : Width) (n : Nat) :
    Answers (fun a => a.status.Grants) (s.shapeLease who h w n) := by
  unfold State.shapeLease
  split
  · next st hst => exact (s.target_answers h _ _).of_error hst
  · dsimp only
    split
    · simp [Status.Refuses]
    · split
      · next st hst => exact (s.shapeChannels_answers _ _ _).of_error hst
      · split
        · simp [Status.Refuses]
        · exact adoptStatus_grants _ _

theorem State.listenLease_answers (who : Position) (h : Handle) (p : Position) :
    Answers (fun a => a.status.Grants) (s.listenLease who h p) := by
  unfold State.listenLease
  split
  · next st hst => exact (s.target_answers h _ _).of_error hst
  · dsimp only
    repeat' split
    all_goals simp [Status.Refuses, adoptStatus_grants]

theorem State.dropLease_answers (h : Handle) (p : Position) : Answers (fun a => a.status.Grants) (s.dropLease h p) := by
  unfold State.dropLease
  split
  · next st hst => exact (s.target_answers h _ _).of_error hst
  · split
    · simp [Status.Refuses]
    · exact adoptStatus_grants _ _

theorem State.retireLease_answers (who : Position) (h : Handle) :
    Answers (fun a => a.status.Grants) (s.retireLease who h) := by
  unfold State.retireLease
  split
  · next st hst => exact (s.target_answers h _ _).of_error hst
  · split
    · simp [Status.Refuses]
    · exact retireRequest_grants _ _ _

theorem State.renewLease_answers (who : Position) (h : Handle) (t : Option Term) :
    Answers (fun a => a.status.Grants) (s.renewLease who h t) := by
  unfold State.renewLease
  split
  · next st hst => exact (s.target_answers h _ _).of_error hst
  · repeat' split
    all_goals simp [Status.Refuses, Status.Grants]

theorem State.setRightsLease_answers (h : Handle) (a b : Bool) :
    Answers (fun a => a.status.Grants) (s.setRightsLease h a b) := by
  unfold State.setRightsLease
  split
  · next st hst => exact (s.target_answers h _ _).of_error hst
  · exact .inl rfl

theorem State.bindLease_answers (h : Handle) (b : Option Channel) : Answers (fun a => a.status.Grants) (s.bindLease h b) := by
  unfold State.bindLease
  split
  · next st hst => exact (s.target_answers h _ _).of_error hst
  · dsimp only
    split
    · exact .inl rfl
    · split
      · simp [Status.Refuses]
      · split
        · next st hst => exact (s.channelCheck_answers _ _ _).of_error hst
        · exact .inl rfl

theorem State.resolve_answers (n : Stream) : Answers (fun _ => True) (s.resolve n) := by
  unfold State.resolve
  repeat' split
  all_goals simp [Status.Refuses]

end

/-! ## The host requests -/

/-- What a host request that passed every step leaves: its status, the length of its result, and a port without it (R69, R191). -/
structure HostAct.Fits (s : State) (length : Nat) (a : HostAct) : Prop where
  status : a.status.Grants
  length : a.result.length = length
  port   : a.state.hostPort = s.hostPort

section
variable (s : State) (ps : List Byte)

theorem Handle.bytes_length (h : Handle) : h.bytes.length = 2 := rfl

theorem State.hostLeaseAct_fits {r : Except Status LeaseAct} (hr : Answers (fun a => a.status.Grants) r) {f : LeaseAct → List Byte}
    {n : Nat} (hf : ∀ a, (f a).length = n) : Answers (HostAct.Fits s (2 + n)) (s.hostLeaseAct r f) := by
  cases r with
  | error st => exact hr
  | ok a => exact ⟨hr, by simp [hf, Handle.bytes_length], by simp⟩

/-- A request whose parameters are not of its form is INVALID (R46). -/
theorem answers_invalid {α : Type} {P : α → Prop} : Answers P (.error .invalid) := by simp [Status.Refuses]

theorem hostCreate_fits : Answers (HostAct.Fits s 4) (hostCreate s ps) := by
  unfold hostCreate
  split
  · exact answers_invalid
  · exact s.hostLeaseAct_fits (s.createLease_answers _ _) (n := 2) fun _ => rfl

theorem hostShape_fits : Answers (HostAct.Fits s 4) (hostShape s ps) := by
  unfold hostShape
  split
  · exact answers_invalid
  · exact s.hostLeaseAct_fits (s.shapeLease_answers _ _ _ _) (n := 2) fun _ => rfl

theorem hostAddListener_fits : Answers (HostAct.Fits s 4) (hostAddListener s ps) := by
  unfold hostAddListener
  split
  · exact answers_invalid
  · exact s.hostLeaseAct_fits (s.listenLease_answers _ _ _) (n := 2) fun _ => rfl

theorem hostDropListener_fits : Answers (HostAct.Fits s 4) (hostDropListener s ps) := by
  unfold hostDropListener
  split
  · exact answers_invalid
  · exact s.hostLeaseAct_fits (s.dropLease_answers _ _) (n := 2) fun _ => rfl

theorem hostRetire_fits : Answers (HostAct.Fits s 2) (hostRetire s ps) := by
  unfold hostRetire
  split
  · exact answers_invalid
  · exact s.hostLeaseAct_fits (s.retireLease_answers _ _) (n := 0) fun _ => rfl

theorem hostRenew_fits : Answers (HostAct.Fits s 2) (hostRenew s ps) := by
  unfold hostRenew
  split
  · exact answers_invalid
  · exact s.hostLeaseAct_fits (s.renewLease_answers _ _ _) (n := 0) fun _ => rfl

theorem hostSetRights_fits : Answers (HostAct.Fits s 2) (hostSetRights s ps) := by
  unfold hostSetRights
  split
  · exact answers_invalid
  · exact s.hostLeaseAct_fits (s.setRightsLease_answers _ _ _) (n := 0) fun _ => rfl

theorem hostBindLocal_fits : Answers (HostAct.Fits s 2) (hostBindLocal s ps) := by
  unfold hostBindLocal
  split
  · exact answers_invalid
  · exact s.hostLeaseAct_fits (s.bindLease_answers _ _) (n := 0) fun _ => rfl

theorem Configuration.bytes_length (c : Configuration) : c.bytes.length = 4 := rfl

theorem configBytes_length (c : Option Configuration) : (configBytes c).length = 4 := by cases c <;> rfl

theorem queryResult_length (l : Lease) : (queryResult l).length = 24 := by
  simp [queryResult, configBytes_length, Configuration.bytes_length, twoBytes, fourBytes]

theorem hostQuery_fits : Answers (HostAct.Fits s 24) (hostQuery s ps) := by
  unfold hostQuery
  split
  · exact answers_invalid
  · split
    · next st hst => exact (s.target_answers _ _ _).of_error hst
    · exact ⟨.inl rfl, queryResult_length _, by simp⟩

theorem hostResolve_fits : Answers (HostAct.Fits s 7) (hostResolve s ps) := by
  unfold hostResolve
  split
  · exact answers_invalid
  · split
    · next st hst => exact (s.resolve_answers _).of_error hst
    · exact ⟨.inl rfl, rfl, rfl⟩

theorem hostRepack_fits : Answers (HostAct.Fits s 1) (hostRepack s ps) := by
  unfold hostRepack
  split
  · exact answers_invalid
  · repeat' split
    · simp [Status.Refuses]
    · simp [Status.Refuses]
    · simp [Status.Refuses]
    · exact ⟨.inl rfl, rfl, rfl⟩
    · exact ⟨.inr rfl, rfl, s.sealRepack_hostPort _⟩

theorem hostPublish_fits : Answers (HostAct.Fits s 1) (hostPublish s ps) := by
  unfold hostPublish
  split
  · exact answers_invalid
  · repeat' split
    · simp [Status.Refuses]
    · simp [Status.Refuses]
    · exact ⟨.inl rfl, rfl, s.sealStaged_hostPort⟩
    · exact ⟨.inl rfl, rfl, rfl⟩

theorem hostSetPublishing_fits : Answers (HostAct.Fits s 0) (hostSetPublishing s ps) := by
  unfold hostSetPublishing
  split
  · exact answers_invalid
  · exact ⟨.inl rfl, rfl, by rw [State.setPublishing_eq]⟩

theorem readMemberResult_length (m : Member) (queued : Bool) (a b : Nat) : (readMemberResult m queued a b).length = 13 := by
  unfold readMemberResult
  cases m.identity <;> cases m.expected <;> rfl

theorem hostReadMember_fits : Answers (HostAct.Fits s 13) (hostReadMember s ps) := by
  unfold hostReadMember
  split
  · exact answers_invalid
  · exact ⟨.inl rfl, readMemberResult_length _ _ _ _, rfl⟩

theorem hostSetExpected_fits : Answers (HostAct.Fits s 0) (hostSetExpected s ps) := by
  unfold hostSetExpected
  split
  · exact answers_invalid
  · exact ⟨.inl rfl, rfl, by simp⟩

theorem hostSetAdmission_fits : Answers (HostAct.Fits s 0) (hostSetAdmission s ps) := by
  unfold hostSetAdmission
  split
  · exact answers_invalid
  · exact ⟨.inl rfl, rfl, rfl⟩

theorem hostChainStart_fits : Answers (HostAct.Fits s 0) (hostChainStart s ps) := by
  unfold hostChainStart
  split
  · exact answers_invalid
  · split
    · simp [Status.Refuses]
    · exact ⟨.inl rfl, rfl, rfl⟩

theorem hostChainStop_fits : Answers (HostAct.Fits s 0) (hostChainStop s ps) := by
  unfold hostChainStop
  split
  · exact answers_invalid
  · refine ⟨.inl rfl, rfl, ?_⟩
    dsimp only
    split
    · exact s.stopChain_hostPort
    · rfl

theorem AttentionSet.fetch_length (a : AttentionSet) : a.fetch.2.length = 5 := by
  unfold AttentionSet.fetch
  repeat' split
  all_goals rfl

theorem hostFetchAttention_fits : Answers (HostAct.Fits s 5) (hostFetchAttention s ps) := by
  unfold hostFetchAttention
  split
  · exact answers_invalid
  · exact ⟨.inl rfl, AttentionSet.fetch_length _, rfl⟩

theorem hostReadStatus_fits : Answers (HostAct.Fits s 13) (hostReadStatus s ps) := by
  unfold hostReadStatus
  split
  · exact answers_invalid
  · exact ⟨.inl rfl, rfl, rfl⟩

end

/-! ## The commands of the host requests -/

/-- What the request with a command code means (R190). -/
def hostMeaning (code : Byte) (s : State) (ps : List Byte) : Except Status HostAct :=
  match hostCommand code with
  | .create => hostCreate s ps
  | .shape => hostShape s ps
  | .addListener => hostAddListener s ps
  | .dropListener => hostDropListener s ps
  | .retire => hostRetire s ps
  | .renew => hostRenew s ps
  | .setRights => hostSetRights s ps
  | .bindLocal => hostBindLocal s ps
  | .query => hostQuery s ps
  | .resolve => hostResolve s ps
  | .repack => hostRepack s ps
  | .publish => hostPublish s ps
  | .setPublishing => hostSetPublishing s ps
  | .readMember => hostReadMember s ps
  | .setExpected => hostSetExpected s ps
  | .setAdmission => hostSetAdmission s ps
  | .chainStart => hostChainStart s ps
  | .chainStop => hostChainStop s ps
  | .fetchAttention => hostFetchAttention s ps
  | .readStatus => hostReadStatus s ps
  | _ => .error .invalid

/-- The two command codes are of one command: they are equal, or neither names a request. -/
def sameCommand (code other : Byte) : Bool := if unknownCode code then unknownCode other else other == code

theorem unknownCode_iff {code : Byte} : unknownCode code = true ↔ code = 0 ∨ 21 ≤ code.toNat := by
  simp [unknownCode, Nat.lt_iff_add_one_le]

theorem hostCode_cases (code : Byte) : unknownCode code = true ∨ code = 1 ∨ code = 2 ∨ code = 3 ∨ code = 4 ∨ code = 5 ∨ code = 6
    ∨ code = 7 ∨ code = 8 ∨ code = 9 ∨ code = 10 ∨ code = 11 ∨ code = 12 ∨ code = 13 ∨ code = 14 ∨ code = 15 ∨ code = 16
    ∨ code = 17 ∨ code = 18 ∨ code = 19 ∨ code = 20 := by
  revert code; decide

theorem hostCommand_unknown : ∀ code, unknownCode code = true → hostCommand code = .unknownCommand := by decide

theorem resultLength_unknown : ∀ code, unknownCode code = true → resultLength code = 0 := by decide

theorem hostMeaning_unknown {code : Byte} (h : unknownCode code = true) (s : State) (ps : List Byte) :
    hostMeaning code s ps = .error .invalid := by
  simp only [hostMeaning, hostCommand_unknown code h]

theorem hostCommand_of_same {code other : Byte} (h : sameCommand code other = true) : hostCommand other = hostCommand code := by
  unfold sameCommand at h
  split at h
  · next hc => rw [hostCommand_unknown _ h, hostCommand_unknown _ hc]
  · rw [eq_of_beq h]

/-- The command of a code takes the requests of that code, and gives them the meaning of the code (R44, R190). -/
theorem exec_hostCommand (code : Byte) (s : State) :
    exec (hostCommand code) s = .next (s.takeHost (sameCommand code) (hostMeaning code)) := by
  rcases hostCode_cases code with h | rfl | rfl | rfl | rfl | rfl | rfl | rfl | rfl | rfl | rfl | rfl | rfl | rfl | rfl | rfl | rfl
    | rfl | rfl | rfl | rfl
  case inl =>
    have hsame : sameCommand code = unknownCode := funext fun b => by simp only [sameCommand, h, if_true]
    have hmean : hostMeaning code = fun _ _ => .error .invalid := funext fun s => funext fun ps => hostMeaning_unknown h s ps
    rw [hostCommand_unknown code h, hsame, hmean]
    rfl
  all_goals rfl

theorem hostMeaning_fits (code : Byte) (s : State) (ps : List Byte) :
    Answers (HostAct.Fits s (resultLength code)) (hostMeaning code s ps) := by
  rcases hostCode_cases code with h | rfl | rfl | rfl | rfl | rfl | rfl | rfl | rfl | rfl | rfl | rfl | rfl | rfl | rfl | rfl | rfl
    | rfl | rfl | rfl | rfl
  · rw [hostMeaning_unknown h]
    exact answers_invalid
  · exact hostCreate_fits s ps
  · exact hostShape_fits s ps
  · exact hostAddListener_fits s ps
  · exact hostDropListener_fits s ps
  · exact hostRetire_fits s ps
  · exact hostRenew_fits s ps
  · exact hostSetRights_fits s ps
  · exact hostBindLocal_fits s ps
  · exact hostQuery_fits s ps
  · exact hostResolve_fits s ps
  · exact hostRepack_fits s ps
  · exact hostPublish_fits s ps
  · exact hostSetPublishing_fits s ps
  · exact hostReadMember_fits s ps
  · exact hostSetExpected_fits s ps
  · exact hostSetAdmission_fits s ps
  · exact hostChainStart_fits s ps
  · exact hostChainStop_fits s ps
  · exact hostFetchAttention_fits s ps
  · exact hostReadStatus_fits s ps

end Sys2Proof.Machine
end

section
/-! PROOFS. The statements about the taking of requests: every request is answered once, by its own command (R42 to R46). -/

namespace Sys2Proof.Machine

/-! ## Host requests (R190) -/

/-- The form step: a request whose parameters have not the form of its code is INVALID (R46, R190). -/
theorem hostMeaning_unformed {code : Byte} {ps : List Byte} (h : ¬HostFormed code ps) (s : State) :
    hostMeaning code s ps = .error .invalid := by
  have named {hd : Handle} (hn : HostNames hd code ps) : HostFormed code ps := .inr (.inl ⟨hd, hn⟩)
  rcases hostCode_cases code with hu | rfl | rfl | rfl | rfl | rfl | rfl | rfl | rfl | rfl | rfl | rfl | rfl | rfl | rfl | rfl | rfl
    | rfl | rfl | rfl | rfl
  · exact hostMeaning_unknown hu s ps
  · change hostCreate s ps = _
    unfold hostCreate
    split
    · rfl
    · next f hr =>
      obtain ⟨hps, hst, h1, h8⟩ := readCreate_iff.1 hr
      exact absurd (.inl ⟨rfl, f, hst, h1, h8, hps⟩) h
  · change hostShape s ps = _
    unfold hostShape
    split
    · rfl
    · next hd w n hr =>
      obtain ⟨hps, h1, h8⟩ := readShape_iff.1 hr
      exact absurd (named (.inl ⟨rfl, w, n, h1, h8, hps⟩)) h
  · change hostAddListener s ps = _
    unfold hostAddListener
    split
    · rfl
    · next hd p hr => exact absurd (named (.inr (.inl ⟨.inl rfl, p, readHandlePosition_iff.1 hr⟩))) h
  · change hostDropListener s ps = _
    unfold hostDropListener
    split
    · rfl
    · next hd p hr => exact absurd (named (.inr (.inl ⟨.inr rfl, p, readHandlePosition_iff.1 hr⟩))) h
  · change hostRetire s ps = _
    unfold hostRetire
    split
    · rfl
    · next hd hr => exact absurd (named (.inr (.inr (.inl ⟨rfl, readHandleOnly_iff.1 hr⟩)))) h
  · change hostRenew s ps = _
    unfold hostRenew
    split
    · rfl
    · next hd t hr => exact absurd (named (.inr (.inr (.inr (.inl ⟨rfl, t, readRenew_iff.1 hr⟩))))) h
  · change hostSetRights s ps = _
    unfold hostSetRights
    split
    · rfl
    · next hd a b hr => exact absurd (named (.inr (.inr (.inr (.inr (.inl ⟨rfl, a, b, readSetRights_iff.1 hr⟩)))))) h
  · change hostBindLocal s ps = _
    unfold hostBindLocal
    split
    · rfl
    · next hd b hr => exact absurd (named (.inr (.inr (.inr (.inr (.inr (.inl ⟨rfl, b, readBindLocal_iff.1 hr⟩))))))) h
  · change hostQuery s ps = _
    unfold hostQuery
    split
    · rfl
    · next hd f hr => exact absurd (named (.inr (.inr (.inr (.inr (.inr (.inr ⟨rfl, f, readQuery_iff.1 hr⟩))))))) h
  · change hostResolve s ps = _
    unfold hostResolve
    split
    · rfl
    · next n hr =>
      obtain ⟨hps, h0⟩ := readResolve_iff.1 hr
      exact absurd (.inr (.inr (.inl ⟨rfl, n, h0, hps⟩))) h
  · change hostRepack s ps = _
    unfold hostRepack
    split
    · rfl
    · next hr => exact absurd (.inr (.inr (.inr (.inl ⟨.inl rfl, readNothing_iff.1 hr⟩)))) h
  · change hostPublish s ps = _
    unfold hostPublish
    split
    · rfl
    · next hr => exact absurd (.inr (.inr (.inr (.inl ⟨.inr (.inl rfl), readNothing_iff.1 hr⟩)))) h
  · change hostSetPublishing s ps = _
    unfold hostSetPublishing
    split
    · rfl
    · next m w hr => exact absurd (.inr (.inr (.inr (.inr (.inl ⟨rfl, m, w, readSetPublishing_iff.1 hr⟩))))) h
  · change hostReadMember s ps = _
    unfold hostReadMember
    split
    · rfl
    · next p hr =>
      obtain ⟨hps, h0⟩ := readReadMember_iff.1 hr
      exact absurd (.inr (.inr (.inr (.inr (.inr (.inl ⟨rfl, p, h0, hps⟩)))))) h
  · change hostSetExpected s ps = _
    unfold hostSetExpected
    split
    · rfl
    · next p x hr =>
      obtain ⟨h0, unread, h3, hps⟩ := readSetExpected_iff.1 hr
      exact absurd (.inr (.inr (.inr (.inr (.inr (.inr (.inl ⟨rfl, p, x, unread, h0, h3, hps⟩))))))) h
  · change hostSetAdmission s ps = _
    unfold hostSetAdmission
    split
    · rfl
    · next m hr => exact absurd (.inr (.inr (.inr (.inr (.inr (.inr (.inr (.inl ⟨rfl, m, readSetAdmission_iff.1 hr⟩)))))))) h
  · change hostChainStart s ps = _
    unfold hostChainStart
    split
    · rfl
    · next r m n hr =>
      obtain ⟨hps, hm2, hm15, hn2, hn64⟩ := readChainStart_iff.1 hr
      exact absurd (.inr (.inr (.inr (.inr (.inr (.inr (.inr (.inr ⟨rfl, r, m, n, hm2, hm15, hn2, hn64, hps⟩)))))))) h
  · change hostChainStop s ps = _
    unfold hostChainStop
    split
    · rfl
    · next hr => exact absurd (.inr (.inr (.inr (.inl ⟨.inr (.inr (.inl rfl)), readNothing_iff.1 hr⟩)))) h
  · change hostFetchAttention s ps = _
    unfold hostFetchAttention
    split
    · rfl
    · next hr => exact absurd (.inr (.inr (.inr (.inl ⟨.inr (.inr (.inr (.inl rfl))), readNothing_iff.1 hr⟩)))) h
  · change hostReadStatus s ps = _
    unfold hostReadStatus
    split
    · rfl
    · next hr => exact absurd (.inr (.inr (.inr (.inl ⟨.inr (.inr (.inr (.inr rfl))), readNothing_iff.1 hr⟩)))) h

theorem sameCommand_self (code : Byte) : sameCommand code code = true := by
  unfold sameCommand
  split
  · assumption
  · exact beq_self_eq_true code

theorem exec_hostCommand_refused {s : State} {code tag : Byte} {ps : List Byte} (hask : s.HostAsks code tag ps) {st : Status}
    (h : hostMeaning code s ps = .error st) : exec (hostCommand code) s = .next (s.hostAnswered code tag ps st []) := by
  rw [exec_hostCommand, State.takeHost_refused hask (sameCommand_self code) h]

/-- No host request that the engine may take now has the code (R44). -/
theorem exec_hostCommand_idle {s : State} {code : Byte} (h : ∀ c tag ps, s.HostAsks c tag ps → hostCommand code ≠ hostCommand c) :
    exec (hostCommand code) s = .next s := by
  rw [exec_hostCommand, State.takeHost_none fun r hr => ?_]
  refine Bool.eq_false_iff.2 fun hsame => ?_
  unfold State.hostRequest? at hr
  split at hr
  · next r' hs =>
    split at hr
    · next hturn =>
      cases hr
      exact h r.command r.tag r.params ⟨hs, hturn⟩ (hostCommand_of_same hsame).symm
    · cases hr
  · cases hr

/-- Settles O11: every meaning is a refusal or fits its request, and only the request's own command takes it. -/
theorem hostRequestsAreAnsweredOnce : Obligations.HostRequestsAreAnsweredOnce := by
  unfold Obligations.HostRequestsAreAnsweredOnce
  refine ⟨fun s code tag ps hask => ⟨?_, fun hu => ?_, fun hf => ?_, fun other hne => ?_⟩, fun s hno code => ?_⟩
  · cases hm : hostMeaning code s ps with
    | error st =>
      obtain ⟨hnone, hdone, hstaged⟩ := (hostMeaning_fits code s ps).of_error hm
      exact ⟨_, st, [], exec_hostCommand_refused hask hm, hnone, rfl, rfl,
        fun hg => absurd hg (not_or.2 ⟨hdone, hstaged⟩), fun _ _ => ⟨rfl, rfl⟩⟩
    | ok a =>
      obtain ⟨hst, hlen, hport⟩ := (hostMeaning_fits code s ps).of_ok hm
      refine ⟨a.state.hostAnswered code tag ps a.status a.result, a.status, a.result, ?_, hst.ne_none, ?_, rfl, fun _ => hlen,
        fun hd hs => (hst.elim hd hs).elim⟩
      · rw [exec_hostCommand, State.takeHost_ok hask (sameCommand_self code) hm, State.answerHost_eq, hst.carries, if_pos rfl]
      · rw [State.hostAnswered_hostPort, hport]
  · have hu' := unknownCode_iff.2 hu
    rw [← hostCommand_unknown code hu']
    exact exec_hostCommand_refused hask (hostMeaning_unknown hu' s ps)
  · exact exec_hostCommand_refused hask (hostMeaning_unformed hf s)
  · refine exec_hostCommand_idle fun c t q hc => ?_
    cases hask.1.symm.trans hc.1
    exact hne
  · exact exec_hostCommand_idle fun c t q hc => absurd hc (hno c t q)

/-! ## Member requests (R188) -/

/-- What the request with an operation code means. -/
def memberMeaning (op : BitVec 3) (s : State) (e : QueueEntry) : Except Status MemberAct :=
  match memberCommand op with
  | .memberCreate => memberCreate s e
  | .memberShape => memberShape s e
  | .listen => memberListen s e
  | .quit => memberQuit s e
  | .memberRetire => memberRetire s e
  | .memberRenew => memberRenew s e
  | .memberResolve => memberResolve s e
  | _ => .error .invalid

/-- The handle that a refusal of the operation names (R45). -/
def refusedHandle (op : BitVec 3) (e : QueueEntry) : Handle :=
  if op = 0 ∨ op = 1 ∨ op = 7 then ⟨0, 0⟩ else e.handle

theorem operation_cases (op : BitVec 3) : op = 0 ∨ op = 1 ∨ op = 2 ∨ op = 3 ∨ op = 4 ∨ op = 5 ∨ op = 6 ∨ op = 7 := by
  revert op; decide

theorem exec_memberCommand (op : BitVec 3) (s : State) :
    exec (memberCommand op) s = .next (s.takeMember op (refusedHandle op) (memberMeaning op)) := by
  rcases operation_cases op with rfl | rfl | rfl | rfl | rfl | rfl | rfl | rfl <;> rfl

/-- What a member request that passed every step leaves to the answer: the engine and the deliveries are as they were. -/
structure MemberAct.Fits (s : State) (a : MemberAct) : Prop where
  status   : a.status.Grants
  engine   : a.state.engine = s.engine
  delivery : a.state.chain.delivery = s.chain.delivery

section
variable (s : State) (e : QueueEntry)

theorem State.memberLeaseAct_fits {r : Except Status LeaseAct} (hr : Answers (fun a => a.status.Grants) r) (f : LeaseAct → BitVec 22) :
    Answers (MemberAct.Fits s) (s.memberLeaseAct r f) := by
  cases r with
  | error st => exact hr
  | ok a => exact ⟨hr, by simp, by simp⟩

theorem memberCreate_fits : Answers (MemberAct.Fits s) (memberCreate s e) := by
  unfold memberCreate
  split
  · exact answers_invalid
  · exact s.memberLeaseAct_fits (s.createLease_answers _ _) _

theorem memberShape_fits : Answers (MemberAct.Fits s) (memberShape s e) := by
  unfold memberShape
  split
  · exact answers_invalid
  · exact s.memberLeaseAct_fits (s.shapeLease_answers _ _ _ _) _

theorem memberResolve_fits : Answers (MemberAct.Fits s) (memberResolve s e) := by
  unfold memberResolve
  split
  · exact answers_invalid
  · split
    · next st hst => exact (s.resolve_answers _).of_error hst
    · exact ⟨.inl rfl, rfl, rfl⟩

end

theorem memberMeaning_fits (op : BitVec 3) (s : State) (e : QueueEntry) : Answers (MemberAct.Fits s) (memberMeaning op s e) := by
  rcases operation_cases op with rfl | rfl | rfl | rfl | rfl | rfl | rfl | rfl
  · exact answers_invalid
  · exact memberCreate_fits s e
  · exact memberShape_fits s e
  · exact s.memberLeaseAct_fits (s.listenLease_answers _ _ _) _
  · exact s.memberLeaseAct_fits (s.dropLease_answers _ _) _
  · exact s.memberLeaseAct_fits (s.retireLease_answers _ _) _
  · exact s.memberLeaseAct_fits (s.renewLease_answers _ _ _) _
  · exact memberResolve_fits s e

/-- The form step of a member request (R46, R54, R188). -/
theorem memberMeaning_unformed {e : QueueEntry} (h : ¬MemberFormed e.operation e.payload) (s : State) :
    memberMeaning e.operation s e = .error .invalid
      ∧ refusedHandle e.operation e = if e.operation = 2 then e.handle else ⟨0, 0⟩ := by
  have named {hd : Handle} (hn : MemberNames hd e.operation e.payload) : False := h (.inr (.inl ⟨hd, hn⟩))
  have handled (ho : e.operation = 3 ∨ e.operation = 4 ∨ e.operation = 5 ∨ e.operation = 6) : False :=
    named (.inr ⟨ho, QueueEntry.handle_iff.1 ⟨rfl, rfl⟩⟩)
  unfold refusedHandle
  rcases operation_cases e.operation with ho | ho | ho | ho | ho | ho | ho | ho
  · rw [ho]
    exact ⟨rfl, rfl⟩
  · refine ⟨?_, by rw [ho]; rfl⟩
    rw [ho]
    change memberCreate s e = _
    unfold memberCreate
    split
    · rfl
    · next f hf =>
      obtain ⟨⟨unread, hp⟩, hs, -⟩ := (QueueEntry.create_iff ho).1 hf
      exact (h (.inl ⟨ho, f, unread, hs, hp⟩)).elim
  · refine ⟨?_, by rw [ho]; rfl⟩
    rw [ho]
    change memberShape s e = _
    unfold memberShape
    split
    · rfl
    · next w n hf =>
      obtain ⟨⟨unread, hp⟩, h1, h8⟩ := (QueueEntry.shape_iff ho).1 ⟨rfl, hf⟩
      exact (named (.inl ⟨ho, w, n, unread, h1, h8, hp⟩)).elim
  · exact (handled (.inl ho)).elim
  · exact (handled (.inr (.inl ho))).elim
  · exact (handled (.inr (.inr (.inl ho)))).elim
  · exact (handled (.inr (.inr (.inr ho)))).elim
  · refine ⟨?_, by rw [ho]; rfl⟩
    rw [ho]
    change memberResolve s e = _
    unfold memberResolve
    split
    · rfl
    · next n hf =>
      obtain ⟨h0, unread, hp⟩ := (QueueEntry.stream_iff ho).1 hf
      exact (h (.inr (.inr ⟨ho, n, unread, h0, hp⟩))).elim

theorem exec_memberCommand_refused {s : State} {e : QueueEntry} {rest : List QueueEntry} (hask : s.MemberAsks e rest) {st : Status}
    (h : memberMeaning e.operation (s.dequeued rest) e = .error st) :
    exec (memberCommand e.operation) s = .next (s.memberAnswered e rest e.operation st (refusedHandle e.operation e) 0) := by
  rw [exec_memberCommand, State.takeMember_refused hask rfl h]

theorem exec_memberCommand_idle {s : State} {op : BitVec 3} (h : ∀ e rest, s.MemberAsks e rest → op ≠ e.operation) :
    exec (memberCommand op) s = .next s := by
  rw [exec_memberCommand]
  unfold State.takeMember
  cases hr : s.memberRequest? with
  | none => rfl
  | some er =>
    obtain ⟨e, rest⟩ := er
    have hask : s.MemberAsks e rest := by
      unfold State.memberRequest? at hr
      split at hr
      · cases hr
      · next e' rest' hq =>
        split at hr
        · split at hr
          · next ht => cases hr; exact ⟨hq, .inr ht⟩
          · cases hr
        · next hw => cases hr; exact ⟨hq, .inl hw⟩
    simp only [if_neg (h e rest hask).symm]

/-- Settles O12: every meaning is a refusal or fits its request, and only the command of the operation takes it. -/
theorem memberRequestsAreAnsweredOnce : Obligations.MemberRequestsAreAnsweredOnce := by
  unfold Obligations.MemberRequestsAreAnsweredOnce
  refine ⟨fun s e rest hask => ⟨?_, fun ho => ?_, fun hf => ?_, fun other hne => ?_⟩, fun s hno op => ?_⟩
  · have hfits := memberMeaning_fits e.operation (s.dequeued rest) e
    cases hm : memberMeaning e.operation (s.dequeued rest) e with
    | error st =>
      obtain ⟨hnone, hdone, hstaged⟩ := hfits.of_error hm
      refine ⟨_, st, refusedHandle e.operation e, 0, exec_memberCommand_refused hask hm, hnone, rfl, fun hp => ?_, ?_,
        fun _ _ => ⟨rfl, rfl, rfl⟩⟩
      · exact congrArg Member.answer (State.member_setMember_self s hp _)
      · simp [State.memberAnswered]
    | ok a =>
      obtain ⟨hst, heng, hdel⟩ := hfits.of_ok hm
      refine ⟨_, a.status, a.handle, a.result, ?_, hst.ne_none, ?_, fun hp => a.state.pend_answer e _ _ _ hp, ?_,
        fun hd hs => (hst.elim hd hs).elim⟩
      · rw [exec_memberCommand, State.takeMember_ok hask rfl hm]
      · simpa [State.pend, State.dequeued] using heng
      · simpa [State.pend, State.dequeued] using hdel
  · have hm : memberMeaning e.operation (s.dequeued rest) e = .error .invalid := by rw [ho]; rfl
    have hx := exec_memberCommand_refused hask hm
    rw [ho] at hx
    exact hx
  · obtain ⟨hm, hh⟩ := memberMeaning_unformed hf (s.dequeued rest)
    rw [exec_memberCommand_refused hask hm, hh]
  · refine exec_memberCommand_idle fun e' rest' h' => ?_
    cases hask.1.symm.trans h'.1
    exact hne
  · exact exec_memberCommand_idle fun e rest h => absurd h (hno e rest)

end Sys2Proof.Machine
end

section
/-! PROOFS. The target, lease-state and rights steps of the requests that name a lease by handle (R47, R48, R49). -/

namespace Sys2Proof.Machine

/-! ## The target and lease-state steps (R2, R47, R48) -/

/-- A GOING lease accepts only a QUERY (R48). -/
theorem State.target_going {s : State} {h : Handle} {l : Lease} (hn : s.Names h l .going) (a : Bool) :
    s.target h a false = .error .gone := State.target_names hn a false

/-- A host request that names a lease fails with its target step (R45, R47, R48). -/
theorem hostMeaning_target {code : Byte} {ps : List Byte} {h : Handle} (hn : HostNames h code ps) {s : State} {st : Status}
    (ht : s.target h (code == 5 || code == 6 || code == 9) (code == 9) = .error st) : hostMeaning code s ps = .error st := by
  rcases hn with ⟨rfl, w, n, h1, h8, rfl⟩ | ⟨rfl | rfl, p, rfl⟩ | ⟨rfl, rfl⟩ | ⟨rfl, t, rfl⟩ | ⟨rfl, a, b, rfl⟩ | ⟨rfl, b, rfl⟩
    | ⟨rfl, f, rfl⟩
  · change s.target h false false = _ at ht
    change hostShape s _ = _
    simp only [hostShape, readShape_iff.2 ⟨rfl, h1, h8⟩, State.shapeLease, ht, State.hostLeaseAct]
  · change s.target h false false = _ at ht
    change hostAddListener s _ = _
    simp only [hostAddListener, readHandlePosition_iff.2 rfl, State.listenLease, ht, State.hostLeaseAct]
  · change s.target h false false = _ at ht
    change hostDropListener s _ = _
    simp only [hostDropListener, readHandlePosition_iff.2 rfl, State.dropLease, ht, State.hostLeaseAct]
  · change s.target h true false = _ at ht
    change hostRetire s _ = _
    simp only [hostRetire, readHandleOnly_iff.2 rfl, State.retireLease, ht, State.hostLeaseAct]
  · change s.target h true false = _ at ht
    change hostRenew s _ = _
    simp only [hostRenew, readRenew_iff.2 rfl, State.renewLease, ht, State.hostLeaseAct]
  · change s.target h false false = _ at ht
    change hostSetRights s _ = _
    simp only [hostSetRights, readSetRights_iff.2 rfl, State.setRightsLease, ht, State.hostLeaseAct]
  · change s.target h false false = _ at ht
    change hostBindLocal s _ = _
    simp only [hostBindLocal, readBindLocal_iff.2 rfl, State.bindLease, ht, State.hostLeaseAct]
  · change s.target h true true = _ at ht
    change hostQuery s _ = _
    simp only [hostQuery, readQuery_iff.2 rfl, ht]

/-- A member's request is of the operation whose payload it holds, and names the handle in it (R188). -/
theorem MemberNames.entry {h : Handle} {op : BitVec 3} {payload : BitVec 40} (hn : MemberNames h op payload) (p : Position)
    (o : Bool) : (⟨p, payload, o⟩ : QueueEntry).operation = op ∧ (⟨p, payload, o⟩ : QueueEntry).handle = h := by
  rcases hn with ⟨rfl, w, n, unread, h1, h8, rfl⟩ | ⟨-, unread, rfl⟩
  · exact ⟨shapePayload_operation h w n unread p o, shapePayload_handle h w n unread p o⟩
  · exact ⟨handlePayload_operation op h unread p o, handlePayload_handle op h unread p o⟩

theorem MemberNames.refusedHandle {h : Handle} {op : BitVec 3} {payload : BitVec 40} (hn : MemberNames h op payload) (p : Position)
    (o : Bool) : refusedHandle op ⟨p, payload, o⟩ = h := by
  have hop : ¬(op = 0 ∨ op = 1 ∨ op = 7) := by
    rcases hn with ⟨rfl, -⟩ | ⟨rfl | rfl | rfl | rfl, -⟩ <;> decide
  rw [Machine.refusedHandle, if_neg hop, (hn.entry p o).2]

/-- The same of a member request. -/
theorem memberMeaning_target {op : BitVec 3} {payload : BitVec 40} {h : Handle} (hn : MemberNames h op payload) {s : State}
    {st : Status} (ht : s.target h (op == 5 || op == 6) false = .error st) (p : Position) (o : Bool) :
    memberMeaning op s ⟨p, payload, o⟩ = .error st := by
  obtain ⟨-, hh⟩ := hn.entry p o
  rcases hn with ⟨rfl, w, n, unread, h1, h8, rfl⟩ | ⟨rfl | rfl | rfl | rfl, unread, rfl⟩
  · change s.target h false false = _ at ht
    change memberShape s _ = _
    simp only [memberShape_of_payload, State.shapeLease, ht, State.memberLeaseAct]
  · change s.target h false false = _ at ht
    change memberListen s _ = _
    simp only [memberListen, hh, State.listenLease, ht, State.memberLeaseAct]
  · change s.target h false false = _ at ht
    change memberQuit s _ = _
    simp only [memberQuit, hh, State.dropLease, ht, State.memberLeaseAct]
  · change s.target h true false = _ at ht
    change memberRetire s _ = _
    simp only [memberRetire, hh, State.retireLease, ht, State.memberLeaseAct]
  · change s.target h true false = _ at ht
    change memberRenew s _ = _
    simp only [memberRenew, hh, State.renewLease, ht, State.memberLeaseAct]

/-- A member request on a lease that fails is answered with the status and the handle it names (R45). -/
theorem exec_memberNames_refused {s : State} {h : Handle} {p : Position} {op : BitVec 3} {payload : BitVec 40} {o : Bool}
    {rest : List QueueEntry} (hask : s.MemberAsks ⟨p, payload, o⟩ rest) (hn : MemberNames h op payload) {st : Status}
    (hm : memberMeaning op (s.dequeued rest) ⟨p, payload, o⟩ = .error st) :
    exec (memberCommand op) s = .next (s.memberAnswered ⟨p, payload, o⟩ rest op st h 0) := by
  obtain ⟨ho, -⟩ := hn.entry p o
  have hx := exec_memberCommand_refused hask (by rw [ho]; exact hm)
  rwa [ho, hn.refusedHandle] at hx

/-- Settles O13: each clause is one answer of the target step, with which the meaning fails. -/
theorem targetAndLeaseStateSteps : Obligations.TargetAndLeaseStateSteps := by
  unfold Obligations.TargetAndLeaseStateSteps
  refine fun s h => ⟨fun code tag ps hask hn => ⟨fun hs => ?_, fun l hl h9 => ?_, fun l hl h5 h6 h9 => ?_⟩,
    fun p op payload o rest hask hn => ⟨fun hs => ?_, fun l hl => ?_, fun l hl h5 h6 => ?_⟩⟩
  · exact exec_hostCommand_refused hask (hostMeaning_target hn (State.target_stale hs _ _))
  · have ht := State.target_going hl (code == 5 || code == 6 || code == 9)
    rw [← beq_eq_false_iff_ne.2 h9] at ht
    exact exec_hostCommand_refused hask (hostMeaning_target hn ht)
  · have ht := State.target_gone (.inl hl)
    refine exec_hostCommand_refused hask (hostMeaning_target hn ?_)
    simpa only [beq_eq_false_iff_ne.2 h5, beq_eq_false_iff_ne.2 h6, beq_eq_false_iff_ne.2 h9, Bool.or_self] using ht
  · exact exec_memberNames_refused hask hn (memberMeaning_target hn (State.target_stale (s := s.dequeued rest) hs _ _) p o)
  · exact exec_memberNames_refused hask hn (memberMeaning_target hn (State.target_going (s := s.dequeued rest) hl _) p o)
  · refine exec_memberNames_refused hask hn (memberMeaning_target hn ?_ p o)
    have ht := State.target_gone (s := s.dequeued rest) (.inl hl)
    simpa only [beq_eq_false_iff_ne.2 h5, beq_eq_false_iff_ne.2 h6, Bool.or_self] using ht

/-! ## The rights step (R49) -/

section
variable {s : State} {h : Handle} {l : Lease} {p : Position}

theorem State.listenLease_denied (hn : s.Names h l .live) (hp : p ≠ 0) (ho : l.owner ≠ p) (hf : l.listenOpen = false) (q : Position) :
    s.listenLease p h q = .error .denied := (State.listenLease_denied_iff hn p q).2 ⟨hp, ho, hf⟩

theorem State.dropLease_stranger (hn : s.Names h l .live) (hf : hasListener l.latest.listeners p = false) :
    s.dropLease h p = .error .invalid := by
  simp [State.dropLease, State.target_live hn, hf]

theorem State.retireLease_denied (hn : s.Names h l .live ∨ s.Names h l .retiring) (hp : p ≠ 0) (ho : l.owner ≠ p) :
    s.retireLease p h = .error .denied := by
  simp [State.retireLease, State.target_liveOrRetiring hn, hp, ho]

theorem State.renewLease_denied (hn : s.Names h l .live ∨ s.Names h l .retiring) (hp : p ≠ 0) (ho : l.owner ≠ p) (hs : l.source ≠ p)
    (t : Option Term) : s.renewLease p h t = .error .denied := by
  simp [State.renewLease, State.target_liveOrRetiring hn, hp, ho, hs]

end

/-- Settles O14: each clause is the rights step of one operation, behind a target step that it passes. -/
theorem rightsStepForMembers : Obligations.RightsStepForMembers := by
  unfold Obligations.RightsStepForMembers
  intro s h l p op payload o rest hp hask hn hstate
  have refused {st : Status} (hm : memberMeaning op (s.dequeued rest) ⟨p, payload, o⟩ = .error st) :=
    exec_memberNames_refused hask hn hm
  obtain ⟨-, hh⟩ := hn.entry p o
  have live (h5 : op ≠ 5) (h6 : op ≠ 6) : (s.dequeued rest).Names h l .live :=
    hstate.resolve_right fun hr => hr.2.elim h5 h6
  have liveOrRetiring : (s.dequeued rest).Names h l .live
      ∨ (s.dequeued rest).Names h l .retiring := hstate.imp_right And.left
  refine ⟨?_, ?_, ?_, ?_, ?_⟩
  · rintro rfl ho hf
    refine refused ?_
    rcases hn with ⟨-, w, n, unread, -, -, rfl⟩ | ⟨hop, -⟩
    · change memberShape _ _ = _
      rw [memberShape_of_payload, (State.shapeLease_denied_iff (live (by decide) (by decide)) _ _ _).2 ⟨hp, ho, hf⟩]
      rfl
    · exact absurd hop (by decide)
  · rintro rfl ho hf
    refine refused ?_
    change memberListen _ _ = _
    rw [memberListen, hh, State.listenLease_denied (live (by decide) (by decide)) hp ho hf]
    rfl
  · rintro rfl hf
    refine refused ?_
    change memberQuit _ _ = _
    rw [memberQuit, hh, State.dropLease_stranger (live (by decide) (by decide)) hf]
    rfl
  · rintro rfl ho
    refine refused ?_
    change memberRetire _ _ = _
    rw [memberRetire, hh, State.retireLease_denied liveOrRetiring hp ho]
    rfl
  · rintro rfl ho hs
    refine refused ?_
    change memberRenew _ _ = _
    rw [memberRenew, hh, State.renewLease_denied liveOrRetiring hp ho hs]
    rfl

end Sys2Proof.Machine
end

section
/-! PROOFS. How a request that changes an entry is answered, and CREATE, from the host and from a member (R50 to R54, R71). -/

namespace Sys2Proof.Machine

/-! ## The answer of an act on an entry -/

/-- A waiting host request that passed every step is answered with what it gives (R69, R177). -/
theorem State.takeHost_granted {s t : State} {c tag : Byte} {ps res : List Byte} (h : s.HostAsks c tag ps) {is : Byte → Bool}
    (hc : is c = true) {meaning : State → List Byte → Except Status HostAct} {st : Status} (hst : st.Grants)
    (ha : meaning s ps = .ok ⟨st, t, res⟩) : s.takeHost is meaning = t.hostAnswered c tag ps st res := by
  rw [State.takeHost_ok h hc ha, State.answerHost_eq, hst.carries, if_pos rfl]

theorem State.onEntry_dequeued (s : State) (rest : List QueueEntry) (i : LeaseIndex) (ev : EntryEvent) :
    (s.dequeued rest).onEntry i ev = (s.onEntry i ev).dequeued rest := by
  unfold State.onEntry State.noteStaged State.dequeued
  dsimp only
  split
  · split <;> rfl
  · rfl

/-- A raise on the lease's item is not heard by the publisher. -/
theorem State.noteStaged_raiseLease (s : State) (i : LeaseIndex) (r : Reasons) :
    (s.raiseLease i r).noteStaged = s.noteStaged.raiseLease i r := by
  unfold State.noteStaged State.raiseLease
  dsimp only
  split <;> rfl

/-- A member request whose act is an event on an entry: the answer, and MEMBER_ACTION on the item that the lease had (R45, R71). -/
theorem State.takeMember_granted {s : State} {e : QueueEntry} {rest : List QueueEntry} (h : s.MemberAsks e rest) {op : BitVec 3}
    (ho : e.operation = op) {named : QueueEntry → Handle} {meaning : State → QueueEntry → Except Status MemberAct} {a : LeaseAct}
    {f : LeaseAct → BitVec 22} (ha : meaning (s.dequeued rest) e = (s.dequeued rest).memberLeaseAct (.ok a) f) :
    s.takeMember op named meaning = ((s.raiseLease a.index Reason.memberAction).onEntry a.index a.event).memberAnswered e rest op
      a.status (s.handleOf a.index) (f a) := by
  have hev : (s.dequeued rest).onEntry a.index (a.event.raising Reason.memberAction)
      = ((s.raiseLease a.index Reason.memberAction).onEntry a.index a.event).dequeued rest := by
    rw [State.onEntry_dequeued, State.onEntry_raising]
  rw [State.takeMember_ok h ho ha, hev, State.pend_eq _ e rest _ _ _ rfl, ho]
  exact State.memberAnswered_setEngine _ _ e rest op _ _ _

theorem State.raiseLease_onEntry_put (s : State) (i : LeaseIndex) (r : Reasons) (l : Lease) :
    (s.raiseLease i r).onEntry i (s.leases[i].put l) = (s.withLease i l).raiseLease i r :=
  (State.onEntry_put (s.raiseLease i r) i l).trans (s.raiseLease_withLease i r l)

theorem State.raiseLease_onEntry_stage (s : State) (i : LeaseIndex) (r : Reasons) (l : Lease) :
    (s.raiseLease i r).onEntry i (s.leases[i].stage l) = (s.withLease i l).noteStaged.raiseLease i r := by
  rw [← State.noteStaged_raiseLease, ← State.raiseLease_withLease]
  exact State.onEntry_stage (s.raiseLease i r) i l

/-! ## What the Placement Unit gives (R31, R32, R33) -/

section
variable {s : State} {i : LeaseIndex} {d : Direction} {source : Position} {c : Configuration} {tried : Option Nat}

theorem State.placeFor_unheard (h : c.listeners = 0) : s.placeFor i d source c tried = some { c with placement := none } := by
  simp [State.placeFor, h]

theorem State.placeFor_placed (hc : 1 ≤ c.count) (h : c.listeners ≠ 0) {o : Nat} (ho : s.PlacedAt i d source c tried o) :
    s.placeFor i d source c tried = some { c with placement := some o } := by
  rcases s.placeFor_cases i d source c tried hc with ⟨h0, -⟩ | ⟨-, o', hp, ho'⟩ | ⟨-, -, hnone⟩
  · exact absurd h0 h
  · rw [hp, ho'.unique ho]
  · exact absurd ho.1 (hnone o)

theorem State.placeFor_full (hc : 1 ≤ c.count) (h : c.listeners ≠ 0) (hf : ∀ o, ¬s.FitsAt i d source c o) :
    s.placeFor i d source c tried = none := by
  rcases s.placeFor_cases i d source c tried hc with ⟨h0, -⟩ | ⟨-, o', -, ho'⟩ | ⟨-, hnone, -⟩
  · exact absurd h0 h
  · exact absurd ho'.1 (hf o')
  · exact hnone

end

/-! ## CREATE: the capacity step (R52, R53) -/

section
variable {s : State} {owner : Position} {f : CreateFields} {i : LeaseIndex}

theorem State.createIn_tableFull (h : ∀ i, s.lease? i ≠ none) : s.createIn owner f = .error .tableFull := by
  simp only [State.createIn, State.lowestFree_none.2 h]

theorem State.createIn_bare (hi : s.LowestFree i) (h0 : f.listeners = 0) :
    s.createIn owner f = .ok ⟨i, s.leases[i].put (f.lease owner s.chain.counter), .done, none⟩ := by
  have h0' : f.config.listeners = 0 := h0
  simp only [State.createIn, State.lowestFree_some.2 hi, State.placeFor_unheard h0', h0, if_true]

theorem State.createIn_listened (hi : s.LowestFree i) (h0 : f.listeners ≠ 0) (hc : 1 ≤ f.count) {o : Nat}
    (ho : s.PlacedAt i f.direction f.source f.config none o) :
    s.createIn owner f = .ok ⟨i, s.leases[i].stage { f.lease owner s.chain.counter with staged := some { f.config with placement := some o } },
      .staged, some o⟩ := by
  have h0' : f.config.listeners ≠ 0 := h0
  simp only [State.createIn, State.lowestFree_some.2 hi, State.placeFor_placed (c := f.config) hc h0' ho, h0, if_false]

theorem State.createIn_noRoom (hi : s.LowestFree i) (h0 : f.listeners ≠ 0) (hc : 1 ≤ f.count)
    (ho : ∀ o, ¬s.FitsAt i f.direction f.source f.config o) : s.createIn owner f = .error .noRoom := by
  have h0' : f.config.listeners ≠ 0 := h0
  simp only [State.createIn, State.lowestFree_some.2 hi, State.placeFor_full (c := f.config) hc h0' ho]

end

/-! ## CREATE: what the asker wrote (R54, R188, R190) -/

theorem hostCreate_of_params {f : CreateFields} (hs : f.stream ≠ 0) (h1 : 1 ≤ f.count) (h8 : f.count ≤ 8) (s : State) :
    hostCreate s (createParams f) = s.hostLeaseAct (s.createLease 0 f) LeaseAct.hostOffset := by
  simp only [hostCreate, readCreate_iff.2 ⟨rfl, hs, h1, h8⟩]

theorem createPayload_operation (p : Position) (f : CreateFields) (unread : BitVec 10) (o : Bool) :
    (⟨p, createPayload f unread, o⟩ : QueueEntry).operation = 1 := (createPayload_iff.1 rfl).1

theorem memberCreate_of_payload {f : CreateFields} (hs : f.stream ≠ 0) (h1 : 1 ≤ f.count) (h8 : f.count ≤ 8) (h0 : f.listeners = 0)
    (hb : f.base = none) (s : State) (unread : BitVec 10) (o : Bool) : memberCreate s ⟨f.source, createPayload f unread, o⟩
      = s.memberLeaseAct (s.createLease f.source f) LeaseAct.memberOffset := by
  have hread := (QueueEntry.create_iff (createPayload_operation f.source f unread o)).2 ⟨⟨unread, rfl⟩, hs, h1, h8, rfl, h0, hb⟩
  simp only [memberCreate, hread]

/-- Nothing that a CREATE reads is of the engine. -/
theorem State.createLease_dequeued (s : State) (rest : List QueueEntry) (owner : Position) (f : CreateFields) :
    (s.dequeued rest).createLease owner f = s.createLease owner f := rfl

section
variable {s : State} {f : CreateFields}

theorem exec_create_refused (hs : f.stream ≠ 0) (h1 : 1 ≤ f.count) (h8 : f.count ≤ 8) {tag : Byte} (hask : s.HostAsks 1 tag (createParams f))
    {st : Status} (h : s.createLease 0 f = .error st) : exec .create s = .next (s.hostAnswered 1 tag (createParams f) st []) := by
  have hm := hostCreate_of_params hs h1 h8 s
  rw [h] at hm
  rw [exec_create, State.takeHost_refused hask rfl hm]

theorem exec_create_granted (hs : f.stream ≠ 0) (h1 : 1 ≤ f.count) (h8 : f.count ≤ 8) {tag : Byte} (hask : s.HostAsks 1 tag (createParams f))
    {a : LeaseAct} (h : s.createLease 0 f = .ok a) : exec .create s = .next ((s.onEntry a.index a.event).hostAnswered 1 tag
      (createParams f) a.status ((s.handleOf a.index).bytes ++ offsetBytes a.offset)) := by
  have hm := hostCreate_of_params hs h1 h8 s
  rw [h] at hm
  rw [exec_create, State.takeHost_granted hask rfl ((s.createLease_answers 0 f).of_ok h) hm]
  rfl

theorem exec_memberCreate_refused (hs : f.stream ≠ 0) (h1 : 1 ≤ f.count) (h8 : f.count ≤ 8) (h0 : f.listeners = 0) (hb : f.base = none)
    {unread : BitVec 10} {o : Bool} {rest : List QueueEntry} (hask : s.MemberAsks ⟨f.source, createPayload f unread, o⟩ rest) {st : Status}
    (h : s.createLease f.source f = .error st) : exec .memberCreate s
      = .next (s.memberAnswered ⟨f.source, createPayload f unread, o⟩ rest 1 st ⟨0, 0⟩ 0) := by
  have hm := memberCreate_of_payload hs h1 h8 h0 hb (s.dequeued rest) unread o
  rw [State.createLease_dequeued, h] at hm
  rw [exec_memberCreate, State.takeMember_refused hask (createPayload_operation _ _ _ _) hm]
  rfl

theorem exec_memberCreate_granted (hs : f.stream ≠ 0) (h1 : 1 ≤ f.count) (h8 : f.count ≤ 8) (h0 : f.listeners = 0) (hb : f.base = none)
    {unread : BitVec 10} {o : Bool} {rest : List QueueEntry} (hask : s.MemberAsks ⟨f.source, createPayload f unread, o⟩ rest) {a : LeaseAct}
    (h : s.createLease f.source f = .ok a) : exec .memberCreate s
      = .next (((s.raiseLease a.index Reason.memberAction).onEntry a.index a.event).memberAnswered
          ⟨f.source, createPayload f unread, o⟩ rest 1 a.status (s.handleOf a.index) (offsetResult a.offset)) := by
  have hm := memberCreate_of_payload hs h1 h8 h0 hb (s.dequeued rest) unread o
  rw [State.createLease_dequeued, h] at hm
  rw [exec_memberCreate, State.takeMember_granted hask (createPayload_operation _ _ _ _) hm]
  rfl

end

/-- Settles O15: a CREATE that is allowed comes to the capacity step, whose outcomes are the clauses. -/
theorem createMakesALease : Obligations.CreateMakesALease := by
  unfold Obligations.CreateMakesALease
  intro s f hs h1 h8
  refine ⟨fun tag hask hal => ⟨fun hfull => ?_, fun i hi => ⟨fun h0 => ?_, fun h0 o ho => ?_, fun h0 hno => ?_⟩⟩,
    fun o unread rest h0 hb hask hal => ⟨fun hfull => ?_, fun i hi => ?_⟩⟩
  · exact exec_create_refused hs h1 h8 hask ((State.createLease_of_allowed hal).trans (State.createIn_tableFull hfull))
  · rw [exec_create_granted hs h1 h8 hask ((State.createLease_of_allowed hal).trans (State.createIn_bare hi h0))]
    dsimp only
    rw [State.onEntry_put]
    rfl
  · rw [exec_create_granted hs h1 h8 hask ((State.createLease_of_allowed hal).trans (State.createIn_listened hi h0 h1 ho))]
    dsimp only
    rw [State.onEntry_stage]
    rfl
  · exact exec_create_refused hs h1 h8 hask ((State.createLease_of_allowed hal).trans (State.createIn_noRoom hi h0 h1 hno))
  · exact exec_memberCreate_refused hs h1 h8 h0 hb hask ((State.createLease_of_allowed hal).trans (State.createIn_tableFull hfull))
  · rw [exec_memberCreate_granted hs h1 h8 h0 hb hask ((State.createLease_of_allowed hal).trans (State.createIn_bare hi h0))]
    dsimp only
    rw [State.raiseLease_onEntry_put]
    rfl

/-! ## The refusals of a CREATE, in their order (R50, R51, R54, R100, R157) -/

section
variable {s : State} {owner : Position} {f : CreateFields}

theorem State.createLease_unusable (h : ¬s.PositionsUsable f) : s.createLease owner f = .error .invalid := by
  rw [← State.positionsUsable_iff, Bool.not_eq_true] at h
  simp only [State.createLease, h, Bool.not_false, if_true]

theorem State.createLease_wrongSide (h1 : s.PositionsUsable f) (h : ¬f.SidesRight) : s.createLease owner f = .error .invalid := by
  rw [CreateFields.sidesRight_iff, not_and_or, not_not, Bool.not_eq_true] at h
  simp only [State.createLease, State.positionsUsable_iff.2 h1, Bool.not_true, Bool.false_eq_true, if_false]
  rcases h with h | h
  · rw [if_pos h]
  · split
    · rfl
    · simp only [h, Bool.not_false, if_true]

/-- Past the checks on positions and sides a CREATE comes to its stream (R50, third check). -/
theorem State.createLease_placed (h1 : s.PositionsUsable f) (h2 : f.SidesRight) : s.createLease owner f
    = if (s.streamMap f.stream).isSome then .error .inUse
      else match s.createChannels f with
        | .error st => .error st
        | .ok () =>
          if owner ≠ 0 ∧ f.term = 0 then .error .invalid
          else if s.overSource f.source || !everyListener f.listeners (fun p => !s.overListen p) then .error .limit
          else s.createIn owner f := by
  have hs := h2.source
  rw [CreateFields.sidesRight_iff] at h2
  simp only [State.createLease, State.positionsUsable_iff.2 h1, h2.1, h2.2, hs, Bool.not_true, Bool.false_eq_true, if_false] <;> rfl

theorem State.createLease_streamUsed (h1 : s.PositionsUsable f) (h2 : f.SidesRight) (h : ¬s.StreamUnused f) :
    s.createLease owner f = .error .inUse := by
  have hm : (s.streamMap f.stream).isSome = true := Option.isSome_iff_ne_none.2 fun hn => h (State.streamMap_eq_none.1 hn)
  rw [State.createLease_placed h1 h2, if_pos hm]

/-- Past the stream check it comes to its binding (R50, fifth check). -/
theorem State.createLease_unused (h1 : s.PositionsUsable f) (h2 : f.SidesRight) (h3 : s.StreamUnused f) : s.createLease owner f
    = match s.createChannels f with
      | .error st => .error st
      | .ok () =>
        if owner ≠ 0 ∧ f.term = 0 then .error .invalid
        else if s.overSource f.source || !everyListener f.listeners (fun p => !s.overListen p) then .error .limit
        else s.createIn owner f := by
  rw [State.createLease_placed h1 h2, State.streamMap_eq_none.2 h3]
  rfl

theorem State.createLease_unbound {st : Status} (h1 : s.PositionsUsable f) (h2 : f.SidesRight) (h3 : s.StreamUnused f)
    (h : s.createChannels f = .error st) : s.createLease owner f = .error st := by
  rw [State.createLease_unused h1 h2 h3, h]

theorem State.createChannels_invalid {b : Channel} (hb : f.base = some b) (h : ¬f.CanBind ∨ 32 < b.val + f.count) :
    s.createChannels f = .error .invalid := by
  rw [CreateFields.CanBind, ← bindable_iff, Bool.not_eq_true] at h
  simp only [State.createChannels, hb]
  split
  · next hc => exact State.channelCheck_outside (h.resolve_left (by simp [hc]))
  · rfl

theorem State.createChannels_inUse {b : Channel} (hb : f.base = some b) (hc : f.CanBind) (hin : b.val + f.count ≤ 32)
    (h : ¬s.ChannelsFree none b f.count) : s.createChannels f = .error .inUse := by
  rw [CreateFields.CanBind, ← bindable_iff] at hc
  rw [State.channelsFree_none_iff] at h
  have hout : ¬32 < b.val + f.count := by omega
  simp only [State.createChannels, hb, hc, if_true]
  rw [State.channelCheck_new, if_neg hout] at h ⊢
  split at h
  · exact absurd rfl h
  · next hall => rw [if_neg hall]

theorem State.createLease_standing (h1 : s.PositionsUsable f) (h2 : f.SidesRight) (h3 : s.StreamUnused f) (h4 : s.BindingFree f)
    (ho : owner ≠ 0) (ht : f.term = 0) : s.createLease owner f = .error .invalid := by
  rw [State.createLease_unused h1 h2 h3, State.createChannels_ok_iff.2 h4]
  exact if_pos ⟨ho, ht⟩

theorem State.createLease_exceeds (h1 : s.PositionsUsable f) (h2 : f.SidesRight) (h3 : s.StreamUnused f) (h4 : s.BindingFree f)
    (ht : owner ≠ 0 → f.term ≠ 0) (h : s.CreateExceeds f) : s.createLease owner f = .error .limit := by
  have hover : (s.overSource f.source || !everyListener f.listeners fun p => !s.overListen p) = true :=
    by_contra fun hn => State.not_exceeds_iff.1 (Bool.not_eq_true _ ▸ hn) h
  rw [State.createLease_unused h1 h2 h3, State.createChannels_ok_iff.2 h4]
  exact (if_neg fun hc => ht hc.1 hc.2).trans (if_pos hover)

end

/-- Settles O16: each clause is one step of the order, behind those that it passes. -/
theorem createRefusalsInOrder : Obligations.CreateRefusalsInOrder := by
  unfold Obligations.CreateRefusalsInOrder
  intro s f hs h1 h8
  have refusals (owner : Position) (answered : Status → Prop) (refused : ∀ st, s.createLease owner f = .error st → answered st) :
      (¬s.PositionsUsable f → answered .invalid)
      ∧ (s.PositionsUsable f → ¬f.SidesRight → answered .invalid)
      ∧ (s.PositionsUsable f → f.SidesRight → ¬s.StreamUnused f → answered .inUse)
      ∧ (s.PositionsUsable f → f.SidesRight → s.StreamUnused f → ∀ b, f.base = some b →
          (¬f.CanBind ∨ 32 < b.val + f.count → answered .invalid)
          ∧ (f.CanBind → b.val + f.count ≤ 32 → ¬s.ChannelsFree none b f.count → answered .inUse))
      ∧ (s.PositionsUsable f → f.SidesRight → s.StreamUnused f → s.BindingFree f → owner ≠ 0 → f.term = 0 → answered .invalid)
      ∧ (s.PositionsUsable f → f.SidesRight → s.StreamUnused f → s.BindingFree f → (owner ≠ 0 → f.term ≠ 0) → s.CreateExceeds f →
          answered .limit) :=
    ⟨fun h => refused _ (State.createLease_unusable h), fun hu h => refused _ (State.createLease_wrongSide hu h),
      fun hu hd h => refused _ (State.createLease_streamUsed hu hd h),
      fun hu hd hn b hb => ⟨fun h => refused _ (State.createLease_unbound hu hd hn (State.createChannels_invalid hb h)),
        fun hc hin h => refused _ (State.createLease_unbound hu hd hn (State.createChannels_inUse hb hc hin h))⟩,
      fun hu hd hn hb ho ht => refused _ (State.createLease_standing hu hd hn hb ho ht),
      fun hu hd hn hb ht h => refused _ (State.createLease_exceeds hu hd hn hb ht h)⟩
  exact ⟨fun tag hask => refusals 0 _ fun st h => exec_create_refused hs h1 h8 hask h,
    fun o unread rest h0 hb hask => refusals f.source _ fun st h => exec_memberCreate_refused hs h1 h8 h0 hb hask h⟩

end Sys2Proof.Machine
end

section
/-! PROOFS. The requests that build configurations, SHAPE, ADD_LISTENER, LISTEN, DROP_LISTENER and QUIT (R17, R31, R55, R56, R57),
and RETIRE (R14, R58). -/

namespace Sys2Proof.Machine

/-! ## Requests on a lease -/

section
variable {s : State} {r : Except Status LeaseAct} {a : LeaseAct} {st : Status}

/-- A host request on a lease that passed every step: the answer of the act. -/
theorem State.takeHost_act {c tag : Byte} {ps : List Byte} (hask : s.HostAsks c tag ps) {is : Byte → Bool} (hc : is c = true)
    {meaning : State → List Byte → Except Status HostAct} {f : LeaseAct → List Byte} (hm : meaning s ps = s.hostLeaseAct r f)
    (hr : r = .ok a) (hg : a.status.Grants) : s.takeHost is meaning
      = (s.onEntry a.index a.event).hostAnswered c tag ps a.status ((s.handleOf a.index).bytes ++ f a) := by
  rw [hr] at hm
  exact State.takeHost_granted hask hc hg hm

theorem State.takeHost_noAct {c tag : Byte} {ps : List Byte} (hask : s.HostAsks c tag ps) {is : Byte → Bool} (hc : is c = true)
    {meaning : State → List Byte → Except Status HostAct} {f : LeaseAct → List Byte} (hm : meaning s ps = s.hostLeaseAct r f)
    (hr : r = .error st) : s.takeHost is meaning = s.hostAnswered c tag ps st [] := by
  rw [hr] at hm
  exact State.takeHost_refused hask hc hm

/-- A member request on a lease: the same, with MEMBER_ACTION on the lease's item for an act (R71). -/
theorem State.takeMember_act {e : QueueEntry} {rest : List QueueEntry} (hask : s.MemberAsks e rest) {op : BitVec 3}
    (ho : e.operation = op) {named : QueueEntry → Handle} {meaning : State → QueueEntry → Except Status MemberAct}
    {f : LeaseAct → BitVec 22} (hm : meaning (s.dequeued rest) e = (s.dequeued rest).memberLeaseAct r f) (hr : r = .ok a) :
    s.takeMember op named meaning = ((s.raiseLease a.index Reason.memberAction).onEntry a.index a.event).memberAnswered
      e rest op a.status (s.handleOf a.index) (f a) := by
  rw [hr] at hm
  exact State.takeMember_granted hask ho hm

theorem State.takeMember_noAct {e : QueueEntry} {rest : List QueueEntry} (hask : s.MemberAsks e rest) {op : BitVec 3}
    (ho : e.operation = op) {named : QueueEntry → Handle} {meaning : State → QueueEntry → Except Status MemberAct}
    {f : LeaseAct → BitVec 22} (hm : meaning (s.dequeued rest) e = (s.dequeued rest).memberLeaseAct r f) (hr : r = .error st) :
    s.takeMember op named meaning = s.memberAnswered e rest op st (named e) 0 := by
  rw [hr] at hm
  exact State.takeMember_refused hask ho hm

end

/-! ## The Placement Unit, whatever the count (R32, R33) -/

section
variable {s : State} {i : LeaseIndex} {d : Direction} {source : Position} {c : Configuration} {tried : Option Nat}

/-- A configuration that costs nothing fits at the first bit; any other is searched for wherever it could fit. -/
theorem State.firstFit_nowhere (h : firstFit (s.otherClaims i d) d source c = none) (o : Nat) : ¬s.FitsAt i d source c o := by
  by_cases hc : c.cost = 0
  · have hfit : s.FitsAt i d source c 0 := ⟨by omega, fun j l _ _ _ r _ => Run.apart_of_cost_zero hc⟩
    unfold firstFit at h
    exact absurd (State.fitsAmong_iff.2 hfit) (List.find?_eq_none.1 h 0 (List.mem_range.2 (by decide)))
  · exact State.firstFit_none h (Nat.one_le_iff_ne_zero.2 hc) o

theorem State.placeFrom_some {o : Nat} (h : placeFrom (s.otherClaims i d) d source c tried = some o) : s.PlacedAt i d source c tried o := by
  have first (hno : ∀ o', tried = some o' → ¬s.FitsAt i d source c o') (hf : firstFit (s.otherClaims i d) d source c = some o) :
      s.PlacedAt i d source c tried o := by
    obtain ⟨hfit, hlow⟩ := State.firstFit_some hf
    exact ⟨hfit, .inr fun o' ho' => ho'.elim (hno o') (hlow o')⟩
  unfold placeFrom at h
  split at h
  · next t =>
    split at h
    · next hfit => cases h; exact ⟨State.fitsAmong_iff.1 hfit, .inl rfl⟩
    · next hfit => exact first (fun o' ho' hf => hfit (Option.some.inj ho' ▸ State.fitsAmong_iff.2 hf)) h
  · exact first nofun h

theorem State.placeFrom_none (h : placeFrom (s.otherClaims i d) d source c tried = none) (o : Nat) : ¬s.FitsAt i d source c o := by
  unfold placeFrom at h
  split at h
  · split at h
    · cases h
    · exact State.firstFit_nowhere h o
  · exact State.firstFit_nowhere h o

theorem State.placeFor_at (h : c.listeners ≠ 0) {o : Nat} (ho : s.PlacedAt i d source c tried o) :
    s.placeFor i d source c tried = some { c with placement := some o } := by
  unfold State.placeFor
  rw [if_neg h]
  cases hp : placeFrom (s.otherClaims i d) d source c tried with
  | none => exact absurd ho.1 (State.placeFrom_none hp o)
  | some o' => rw [(State.placeFrom_some hp).unique ho]

theorem State.placeFor_nowhere (h : c.listeners ≠ 0) (hf : ∀ o, ¬s.FitsAt i d source c o) : s.placeFor i d source c tried = none := by
  unfold State.placeFor
  rw [if_neg h]
  cases hp : placeFrom (s.otherClaims i d) d source c tried with
  | none => rfl
  | some o' => exact absurd (State.placeFrom_some hp).1 (hf o')

end

/-! ## A new configuration (R17, R31) -/

section
variable {s : State} {i : LeaseIndex} {l : Lease} {c : Configuration}

theorem State.onEntry_adopt_atOnce (h : l.atOnce c = true) : s.onEntry i (adoptEvent s.leases[i] l c)
    = s.withLease i { l with active := c, staged := l.sealedConfig.map fun _ => c } := by
  rw [adoptEvent, if_pos h, State.onEntry_put, Lease.adopt, if_pos h]

theorem State.onEntry_adopt_staged (h : l.atOnce c = false) : s.onEntry i (adoptEvent s.leases[i] l c)
    = (s.withLease i { l with staged := some c }).noteStaged := by
  have h' : ¬l.atOnce c = true := by simp [h]
  rw [adoptEvent, if_neg h', State.onEntry_stage, Lease.adopt, if_neg h']

theorem adoptStatus_atOnce (h : l.atOnce c = true) : adoptStatus l c = .done := if_pos h
theorem adoptStatus_staged (h : l.atOnce c = false) : adoptStatus l c = .staged := if_neg (by simp [h])

theorem State.raiseLease_onEntry_adopt (r : Reasons) : (s.raiseLease i r).onEntry i (adoptEvent s.leases[i] l c)
    = (s.onEntry i (adoptEvent s.leases[i] l c)).raiseLease i r := by
  unfold adoptEvent
  split
  · rw [State.raiseLease_onEntry_put, State.onEntry_put]
  · rw [State.raiseLease_onEntry_stage, State.onEntry_stage]

/-- What a request does that builds a configuration for the lease a handle names (R31, R55, R56). -/
def State.adoptAct (s : State) (h : Handle) (l : Lease) (c : Configuration) : Except Status LeaseAct :=
  match s.placeFor h.index l.direction l.source c l.latest.placement with
  | none => .error .noRoom
  | some c' => .ok ⟨h.index, adoptEvent s.leases[h.index] l c', adoptStatus l c', c'.placement⟩

/-- The outcomes of R17 are those of the Placement Unit and of the test whether the change can take effect at once. -/
theorem State.newConfiguration_of {out : Status → State → Option Nat → Prop}
    (adopted : ∀ c', s.placeFor i l.direction l.source c l.latest.placement = some c' →
      out (adoptStatus l c') (s.onEntry i (adoptEvent s.leases[i] l c')) c'.placement)
    (full : s.placeFor i l.direction l.source c l.latest.placement = none → out .noRoom s none) : s.NewConfiguration i l c out := by
  refine ⟨fun h0 hu => ?_, fun h0 hu => ?_, fun h0 o ho => ?_, fun h0 hno => full (State.placeFor_nowhere h0 hno)⟩
  · have ha : l.atOnce { c with placement := none } = true := Lease.atOnce_iff.2 ⟨hu, h0⟩
    have hx := adopted _ (State.placeFor_unheard h0)
    rwa [adoptStatus_atOnce ha, State.onEntry_adopt_atOnce ha] at hx
  · have ha : l.atOnce { c with placement := none } = false := Bool.eq_false_iff.2 fun hc => hu (Lease.atOnce_iff.1 hc).1
    have hx := adopted _ (State.placeFor_unheard h0)
    rwa [adoptStatus_staged ha, State.onEntry_adopt_staged ha] at hx
  · have ha : l.atOnce { c with placement := some o } = false := Bool.eq_false_iff.2 fun hc => h0 (Lease.atOnce_iff.1 hc).2
    have hx := adopted _ (State.placeFor_at h0 ho)
    rwa [adoptStatus_staged ha, State.onEntry_adopt_staged ha] at hx

variable {h : Handle}

/-- A host request that builds a configuration answers with the handle and the offset (R191). -/
theorem State.takeHost_newConfiguration (hn : s.handleOf h.index = h) {code tag : Byte} {ps : List Byte} (hask : s.HostAsks code tag ps)
    {is : Byte → Bool} (hc : is code = true) {meaning : State → List Byte → Except Status HostAct}
    (hm : meaning s ps = s.hostLeaseAct (s.adoptAct h l c) LeaseAct.hostOffset) :
    s.NewConfiguration h.index l c fun st t o => s.takeHost is meaning
      = t.hostAnswered code tag ps st (if st = .noRoom then [] else h.bytes ++ offsetBytes o) := by
  refine State.newConfiguration_of (fun c' hp => ?_) (fun hp => ?_)
  · have hg := adoptStatus_grants l c'
    have hr : s.adoptAct h l c = .ok ⟨h.index, adoptEvent s.leases[h.index] l c', adoptStatus l c', c'.placement⟩ := by
      simp only [State.adoptAct, hp]
    have hne : adoptStatus l c' ≠ .noRoom := by rcases hg with hg | hg <;> rw [hg] <;> decide
    rw [if_neg hne, State.takeHost_act hask hc hm hr hg]
    dsimp only
    rw [hn]
    rfl
  · have hr : s.adoptAct h l c = .error .noRoom := by simp only [State.adoptAct, hp]
    rw [if_pos rfl, State.takeHost_noAct hask hc hm hr]

/-- A member request that builds a configuration answers with the offset (R189). -/
theorem State.takeMember_newConfiguration (hn : s.handleOf h.index = h) {e : QueueEntry} {rest : List QueueEntry}
    (hask : s.MemberAsks e rest) {op : BitVec 3} (ho : e.operation = op) {named : QueueEntry → Handle} (hh : named e = h)
    {meaning : State → QueueEntry → Except Status MemberAct}
    (hm : meaning (s.dequeued rest) e = (s.dequeued rest).memberLeaseAct (s.adoptAct h l c) LeaseAct.memberOffset) :
    s.NewConfiguration h.index l c fun st t o => s.takeMember op named meaning
      = (if st = .noRoom then t else t.raiseLease h.index Reason.memberAction).memberAnswered e rest op st h
          (if st = .noRoom then 0 else offsetBits o ++ (0 : BitVec 13)) := by
  refine State.newConfiguration_of (fun c' hp => ?_) (fun hp => ?_)
  · have hr : s.adoptAct h l c = .ok ⟨h.index, adoptEvent s.leases[h.index] l c', adoptStatus l c', c'.placement⟩ := by
      simp only [State.adoptAct, hp]
    have hne : adoptStatus l c' ≠ .noRoom := by rcases adoptStatus_grants l c' with hg | hg <;> rw [hg] <;> decide
    rw [if_neg hne, if_neg hne, State.takeMember_act hask ho hm hr]
    dsimp only
    rw [hn, State.raiseLease_onEntry_adopt]
    rfl
  · have hr : s.adoptAct h l c = .error .noRoom := by simp only [State.adoptAct, hp]
    rw [if_pos rfl, if_pos rfl, State.takeMember_noAct hask ho hm hr, hh]

end

/-! ## SHAPE (R55, R158) -/

section
variable {s : State} {h : Handle} {l : Lease} {who : Position} {w : Width} {n : Nat}

/-- The configuration that a SHAPE builds, before its placement (R55). -/
def Lease.shapedAs (l : Lease) (w : Width) (n : Nat) : Configuration := { l.latest with width := w, count := n, placement := none }

theorem State.shapeLease_eq (hn : s.Names h l .live) (hw : who = 0 ∨ l.owner = who ∨ l.shapeOpen = true) :
    s.shapeLease who h w n = (s.shapeChannels h.index l (l.shapedAs w n)).bind fun _ => s.adoptAct h l (l.shapedAs w n) := by
  have hr : (!(who == 0 || l.owner == who || l.shapeOpen)) = false := by simpa [imp_iff_not_or, or_assoc] using hw
  simp only [State.shapeLease, State.target_live hn, hr, Bool.false_eq_true, if_false, Lease.shapedAs, State.adoptAct]
  cases s.shapeChannels h.index l { l.latest with width := w, count := n, placement := none } <;> rfl

theorem State.shapeChannels_free {c : Configuration} {i : LeaseIndex}
    (hf : ∀ b, l.base = some b → s.ChannelsFree (some i) b (l.adopt c).largestCount) : s.shapeChannels i l c = .ok () := by
  unfold State.shapeChannels
  split
  · rfl
  · next b hb => exact State.channelCheck_free (hf b hb)

theorem State.shapeChannels_invalid {c : Configuration} {i : LeaseIndex} {b : Channel} (hb : l.base = some b)
    (h : 32 < b.val + (l.adopt c).largestCount) : s.shapeChannels i l c = .error .invalid := by
  simp only [State.shapeChannels, hb, State.channelCheck_outside h]

theorem State.shapeChannels_inUse {c : Configuration} {i : LeaseIndex} {b : Channel} (hb : l.base = some b) (hl : s.ChannelsLawful)
    (hin : b.val + (l.adopt c).largestCount ≤ 32) (h : ¬s.ChannelsFree (some i) b (l.adopt c).largestCount) :
    s.shapeChannels i l c = .error .inUse := by
  simp only [State.shapeChannels, hb, State.channelCheck_reserved hl hin h]

theorem State.shapeLease_free (hn : s.Names h l .live) (hw : who = 0 ∨ l.owner = who ∨ l.shapeOpen = true)
    (hf : ∀ b, l.base = some b → s.ChannelsFree (some h.index) b (l.adopt (l.shapedAs w n)).largestCount) :
    s.shapeLease who h w n = s.adoptAct h l (l.shapedAs w n) := by
  rw [State.shapeLease_eq hn hw, State.shapeChannels_free hf]
  rfl

theorem State.shapeLease_refused (hn : s.Names h l .live) (hw : who = 0 ∨ l.owner = who ∨ l.shapeOpen = true) {st : Status}
    (hc : s.shapeChannels h.index l (l.shapedAs w n) = .error st) : s.shapeLease who h w n = .error st := by
  rw [State.shapeLease_eq hn hw, hc]
  rfl

theorem hostShape_of_params (s : State) (h : Handle) (w : Width) (h1 : 1 ≤ n) (h8 : n ≤ 8) :
    hostShape s (shapeParams h w n) = s.hostLeaseAct (s.shapeLease 0 h w n) LeaseAct.hostOffset := by
  simp only [hostShape, readShape_iff.2 ⟨rfl, h1, h8⟩]

theorem countOf_countBits (h1 : 1 ≤ n) (h8 : n ≤ 8) : countOf (countBits n) = n := (countOf_iff.2 ⟨rfl, h1, h8⟩)

/-- Nothing that a SHAPE reads is of the engine. -/
theorem memberShape_dequeued (s : State) (rest : List QueueEntry) (h : Handle) (w : Width) (h1 : 1 ≤ n) (h8 : n ≤ 8) (unread : BitVec 20)
    (p : Position) (o : Bool) : memberShape (s.dequeued rest) ⟨p, shapePayload h w n unread, o⟩
      = (s.dequeued rest).memberLeaseAct (s.shapeLease p h w n) LeaseAct.memberOffset := by
  rw [memberShape_of_payload, countOf_countBits h1 h8]
  rfl

theorem exec_shape (s : State) : exec .shape s = .next (s.takeHost (· == 2) hostShape) := rfl

end

/-- Settles O17: past the channel check the host and a member come to the same outcomes of a new configuration. -/
theorem shapeBuildsFromTheLatest : Obligations.ShapeBuildsFromTheLatest := by
  unfold Obligations.ShapeBuildsFromTheLatest
  intro s h l w n hn h1 h8
  refine ⟨fun tag hask => ⟨fun hf => ?_, fun b hb => ?_⟩, fun p unread o rest hask hw => ⟨fun hf => ?_, fun b hb => ?_⟩⟩
  · have hm := hostShape_of_params s h w h1 h8
    rw [State.shapeLease_free hn (.inl rfl) hf] at hm
    simp only [exec_shape, Host.Outcome.next.injEq]
    exact State.takeHost_newConfiguration hn.handleOf hask rfl hm
  · have refused {st : Status} (hc : s.shapeChannels h.index l (l.shapedAs w n) = .error st) :
        exec .shape s = .next (s.hostAnswered 2 tag (shapeParams h w n) st []) := by
      rw [exec_shape, State.takeHost_noAct hask rfl (hostShape_of_params s h w h1 h8) (State.shapeLease_refused hn (.inl rfl) hc)]
    exact ⟨fun hout => refused (State.shapeChannels_invalid hb hout), fun hl hin hf => refused (State.shapeChannels_inUse hb hl hin hf)⟩
  · have hm := memberShape_dequeued s rest h w h1 h8 unread p o
    rw [State.shapeLease_free hn (.inr hw) hf] at hm
    simp only [exec_memberShape, Host.Outcome.next.injEq]
    exact State.takeMember_newConfiguration hn.handleOf hask (shapePayload_operation h w n unread p o) (shapePayload_handle h w n unread p o) hm
  · have refused {st : Status} (hc : s.shapeChannels h.index l (l.shapedAs w n) = .error st) :
        exec .memberShape s = .next (s.memberAnswered ⟨p, shapePayload h w n unread, o⟩ rest 2 st h 0) := by
      rw [exec_memberShape, State.takeMember_noAct hask (shapePayload_operation h w n unread p o)
        (memberShape_dequeued s rest h w h1 h8 unread p o) (State.shapeLease_refused hn (.inr hw) hc), shapePayload_handle]
    exact ⟨fun hout => refused (State.shapeChannels_invalid hb hout), fun hl hin hf => refused (State.shapeChannels_inUse hb hl hin hf)⟩

/-! ## ADD_LISTENER and LISTEN (R50, R51, R56) -/

section
variable {s : State} {h : Handle} {l : Lease} {who p : Position}

/-- The configuration that one more listener asks for, before its placement (R56). -/
def Lease.heardAlsoBy (l : Lease) (p : Position) : Configuration :=
  { l.latest with listeners := withListener l.latest.listeners p, placement := none }

/-- The position can be a listener of the lease and is none (R50). -/
def State.MayListen (s : State) (l : Lease) (p : Position) : Prop :=
  (p = 0 ∨ s.joined p = true) ∧ onSide l.direction l.source p = true ∧ hasListener l.latest.listeners p = false

/-- One more lease listened to keeps the position within its limit (R51). -/
def State.ListensWithin (s : State) (l : Lease) (p : Position) : Prop :=
  p ≠ 0 → l.listensAt p = false → s.listenCount p + 1 ≤ s.listenLimit p

theorem State.listenLease_invalid (hn : s.Names h l .live) (hw : who = 0 ∨ l.owner = who ∨ l.listenOpen = true) (hg : ¬s.MayListen l p) :
    s.listenLease who h p = .error .invalid := by
  have hr : (!(who == 0 || l.owner == who || l.listenOpen)) = false := by simpa [imp_iff_not_or, or_assoc] using hw
  simp only [State.listenLease, State.target_live hn, hr, Bool.false_eq_true, if_false]
  split
  · rfl
  · next hu =>
    split
    · rfl
    · next hs =>
      split
      · rfl
      · next hl =>
        refine absurd ⟨State.usable_iff.1 (by simpa using hu), by simpa using hs, ?_⟩ hg
        exact (by simpa using hl : p ≠ l.source ∧ hasListener l.latest.listeners p = false).2

theorem State.listenLease_limited (hn : s.Names h l .live) (hw : who = 0 ∨ l.owner = who ∨ l.listenOpen = true) (hg : s.MayListen l p) :
    s.listenLease who h p = if !l.listensAt p && s.overListen p then .error .limit else s.adoptAct h l (l.heardAlsoBy p) := by
  have hr : (!(who == 0 || l.owner == who || l.listenOpen)) = false := by simpa [imp_iff_not_or, or_assoc] using hw
  obtain ⟨hu, hside, hnone⟩ := hg
  have hself : (decide (p = l.source) || hasListener l.latest.listeners p) = false := by simp [hnone, onSide_ne hside]
  simp only [State.listenLease, State.target_live hn, hr, State.usable_iff.2 hu, hside, hself, Bool.not_true, Bool.false_eq_true, if_false,
    State.adoptAct, Lease.heardAlsoBy] <;> rfl

theorem State.listensWithin_iff : (!l.listensAt p && s.overListen p) = false ↔ s.ListensWithin l p := by
  rw [Bool.and_eq_false_iff, Bool.not_eq_false', State.overListen_eq_false_iff, State.ListensWithin]
  cases l.listensAt p <;> simp

theorem State.listenLease_within (hn : s.Names h l .live) (hw : who = 0 ∨ l.owner = who ∨ l.listenOpen = true) (hg : s.MayListen l p)
    (hl : s.ListensWithin l p) : s.listenLease who h p = s.adoptAct h l (l.heardAlsoBy p) := by
  rw [State.listenLease_limited hn hw hg, State.listensWithin_iff.2 hl]
  rfl

theorem State.listenLease_limit (hn : s.Names h l .live) (hw : who = 0 ∨ l.owner = who ∨ l.listenOpen = true) (hg : s.MayListen l p)
    (hl : ¬s.ListensWithin l p) : s.listenLease who h p = .error .limit := by
  rw [← State.listensWithin_iff, Bool.not_eq_false] at hl
  rw [State.listenLease_limited hn hw hg, hl]
  rfl

theorem hostAddListener_of_bytes (s : State) (h : Handle) (p : Position) :
    hostAddListener s (h.bytes ++ [posByte p]) = s.hostLeaseAct (s.listenLease 0 h p) LeaseAct.hostOffset := by
  simp only [hostAddListener, readHandlePosition_iff.2 rfl]

/-- Nothing that a LISTEN reads is of the engine. -/
theorem memberListen_dequeued (s : State) (rest : List QueueEntry) (h : Handle) (unread : BitVec 26) (p : Position) (o : Bool) :
    memberListen (s.dequeued rest) ⟨p, handlePayload 3 h unread, o⟩
      = (s.dequeued rest).memberLeaseAct (s.listenLease p h p) LeaseAct.memberOffset := by
  rw [memberListen, handlePayload_handle]
  rfl

theorem exec_addListener (s : State) : exec .addListener s = .next (s.takeHost (· == 3) hostAddListener) := rfl

end

/-- Settles O18: past the checks on the position and its limit the host and a member come to the same outcomes. -/
theorem listenersAreAdded : Obligations.ListenersAreAdded := by
  unfold Obligations.ListenersAreAdded
  intro s h l p hn
  refine ⟨fun tag hask => ⟨fun hg hl => ?_, fun hg => ?_, fun hg hl => ?_⟩, fun unread o rest hask hw => ⟨fun hg hl => ?_, fun hg => ?_, fun hg hl => ?_⟩⟩
  · have hm := hostAddListener_of_bytes s h p
    rw [State.listenLease_within hn (.inl rfl) hg hl] at hm
    simp only [exec_addListener, Host.Outcome.next.injEq]
    exact State.takeHost_newConfiguration hn.handleOf hask rfl hm
  · rw [exec_addListener, State.takeHost_noAct hask rfl (hostAddListener_of_bytes s h p) (State.listenLease_invalid hn (.inl rfl) hg)]
  · rw [exec_addListener, State.takeHost_noAct hask rfl (hostAddListener_of_bytes s h p) (State.listenLease_limit hn (.inl rfl) hg hl)]
  · have hm := memberListen_dequeued s rest h unread p o
    rw [State.listenLease_within hn (.inr hw) hg hl] at hm
    simp only [exec_listen, Host.Outcome.next.injEq]
    exact State.takeMember_newConfiguration hn.handleOf hask (handlePayload_operation 3 h unread p o) (handlePayload_handle 3 h unread p o) hm
  · rw [exec_listen, State.takeMember_noAct hask (handlePayload_operation 3 h unread p o) (memberListen_dequeued s rest h unread p o)
      (State.listenLease_invalid hn (.inr hw) hg), handlePayload_handle]
  · rw [exec_listen, State.takeMember_noAct hask (handlePayload_operation 3 h unread p o) (memberListen_dequeued s rest h unread p o)
      (State.listenLease_limit hn (.inr hw) hg hl), handlePayload_handle]

/-! ## DROP_LISTENER and QUIT (R34, R57) -/

section
variable {s : State} {h : Handle} {l : Lease} {p : Position} {o : Nat}

/-- A lease whose latest configuration is placed has something placed. -/
theorem Lease.latest_placed (h : l.latest.placement = some o) : ¬l.Unplaced := by
  rintro ⟨ha, hs, ht⟩
  rcases Lease.mem_configurations.1 l.latest_mem with hm | hm | hm
  · rw [hm, ha] at h; cases h
  · rw [hs _ hm] at h; cases h
  · rw [ht _ hm] at h; cases h

theorem State.dropLease_staged (hn : s.Names h l .live) (hp : hasListener l.latest.listeners p = true) (ho : l.latest.placement = some o) :
    s.dropLease h p = .ok ⟨h.index, s.leases[h.index].stage { l with staged := some { l.latest with
      listeners := withoutListener l.latest.listeners p
      placement := if withoutListener l.latest.listeners p = 0 then none else some o } }, .staged,
      if withoutListener l.latest.listeners p = 0 then none else some o⟩ := by
  have ha (c : Configuration) : ¬l.atOnce c = true := fun hc => Lease.latest_placed ho (Lease.atOnce_iff.1 hc).1
  simp only [State.dropLease, State.target_live hn, hp, Bool.not_true, Bool.false_eq_true, if_false, adoptEvent, adoptStatus, Lease.adopt,
    ha, Configuration.shrunkTo, ho]

theorem hostDropListener_of_bytes (s : State) (h : Handle) (p : Position) :
    hostDropListener s (h.bytes ++ [posByte p]) = s.hostLeaseAct (s.dropLease h p) LeaseAct.hostOffset := by
  simp only [hostDropListener, readHandlePosition_iff.2 rfl]

theorem memberQuit_dequeued (s : State) (rest : List QueueEntry) (h : Handle) (unread : BitVec 26) (p : Position) (o : Bool) :
    memberQuit (s.dequeued rest) ⟨p, handlePayload 4 h unread, o⟩
      = (s.dequeued rest).memberLeaseAct (s.dropLease h p) LeaseAct.memberOffset := by
  rw [memberQuit, handlePayload_handle]
  rfl

theorem exec_dropListener (s : State) : exec .dropListener s = .next (s.takeHost (· == 4) hostDropListener) := rfl
theorem exec_quit (s : State) : exec .quit s = .next (s.takeMember 4 QueueEntry.handle memberQuit) := rfl

end

/-- Settles O19: a placed latest configuration is never changed at once, so what is left of it is staged. -/
theorem listenersAreDropped : Obligations.ListenersAreDropped := by
  unfold Obligations.ListenersAreDropped
  intro s h l p hn
  refine ⟨fun hp tag hask => ?_, fun o hp ho => ⟨fun tag hask => ?_, fun unread overrun rest hask => ?_⟩⟩
  · rw [exec_dropListener, State.takeHost_noAct hask rfl (hostDropListener_of_bytes s h p) (State.dropLease_stranger hn hp)]
  · rw [exec_dropListener, State.takeHost_act hask rfl (hostDropListener_of_bytes s h p) (State.dropLease_staged hn hp ho) (.inr rfl)]
    dsimp only
    rw [State.onEntry_stage, hn.handleOf]
    rfl
  · rw [exec_quit, State.takeMember_act hask (handlePayload_operation 4 h unread p overrun) (memberQuit_dequeued s rest h unread p overrun)
      (State.dropLease_staged hn hp ho)]
    dsimp only
    rw [State.raiseLease_onEntry_stage, hn.handleOf]
    rfl

/-! ## RETIRE (R14, R16, R58) -/

section
variable {s : State} {h : Handle} {l : Lease} {who : Position}

theorem State.retireLease_eq (hn : s.Names h l .live ∨ s.Names h l .retiring) (hw : who = 0 ∨ l.owner = who) :
    s.retireLease who h = .ok ⟨h.index, (retireRequest s.leases[h.index] l who).1, (retireRequest s.leases[h.index] l who).2, none⟩ := by
  have hr : (!(who == 0 || l.owner == who)) = false := by simpa [imp_iff_not_or] using hw
  simp only [State.retireLease, State.target_liveOrRetiring hn, hr, Bool.false_eq_true, if_false]

/-- The rows of the table are the outcomes of `retireRequest`, taken on the entry. -/
theorem State.retirement_of {i : LeaseIndex} {out : Status → State → Prop}
    (h : out (retireRequest s.leases[i] l who).2 (s.onEntry i (retireRequest s.leases[i] l who).1)) : s.Retirement i l who out := by
  have row {ev : EntryEvent} {st : Status} (hr : retireRequest s.leases[i] l who = (ev, st)) : out st (s.onEntry i ev) := by rwa [hr] at h
  refine ⟨fun hm hnow => ?_, fun hm hnow => ?_, fun hm => ?_, fun p hm => ?_, fun hm => ?_⟩
  · have hx := row (by simp only [retireRequest, hm, retireLive, if_pos (Lease.retiresAtOnce_iff.2 hnow)]; rfl)
    rw [State.onEntry_free] at hx
    simpa only [Cause.byHost, beq_iff_eq] using hx
  · have hx := row (by simp only [retireRequest, hm, retireLive, if_neg (fun hc => hnow (Lease.retiresAtOnce_iff.1 hc))]; rfl)
    rwa [State.onEntry_stage] at hx
  · have hx := row (by simp only [retireRequest, hm]; rfl)
    rwa [State.onEntry_put] at hx
  · have hx := row (by simp only [retireRequest, hm]; rfl)
    rwa [State.onEntry_unchanged] at hx
  · have hx := row (by simp only [retireRequest, hm]; rfl)
    rwa [State.onEntry_unchanged] at hx

theorem hostRetire_of_bytes (s : State) (h : Handle) : hostRetire s h.bytes = s.hostLeaseAct (s.retireLease 0 h) fun _ => [] := by
  simp only [hostRetire, readHandleOnly_iff.2 rfl]

theorem memberRetire_dequeued (s : State) (rest : List QueueEntry) (h : Handle) (unread : BitVec 26) (p : Position) (o : Bool) :
    memberRetire (s.dequeued rest) ⟨p, handlePayload 5 h unread, o⟩
      = (s.dequeued rest).memberLeaseAct (s.retireLease p h) LeaseAct.noResult := by
  rw [memberRetire, handlePayload_handle]
  rfl

theorem exec_retire (s : State) : exec .retire s = .next (s.takeHost (· == 5) hostRetire) := rfl
theorem exec_memberRetire (s : State) :
    exec .memberRetire s = .next (s.takeMember 5 QueueEntry.handle memberRetire) := rfl

end

/-- Settles O20: the host and the owner come to the same table, the owner behind a raised MEMBER_ACTION. -/
theorem retireByItsTable : Obligations.RetireByItsTable := by
  unfold Obligations.RetireByItsTable
  intro s h l hn
  have hh : s.handleOf h.index = h := hn.elim State.Names.handleOf State.Names.handleOf
  refine ⟨fun tag hask => State.retirement_of ?_, fun unread overrun rest hask => State.retirement_of ?_⟩
  · rw [exec_retire, State.takeHost_act hask rfl (hostRetire_of_bytes s h) (State.retireLease_eq hn (.inl rfl)) (retireRequest_grants _ _ _)]
    dsimp only
    rw [hh, List.append_nil]
  · rw [exec_memberRetire, State.takeMember_act hask (handlePayload_operation 5 h unread l.owner overrun)
      (memberRetire_dequeued s rest h unread l.owner overrun) (State.retireLease_eq hn (.inr rfl))]
    dsimp only
    rw [hh]
    rfl

end Sys2Proof.Machine
end

section
/-! PROOFS. The results that the host reads, byte by byte (R191), and the requests that read them: QUERY, RESOLVE (R62, R63)
and READ_MEMBER, with SET_EXPECTED and SET_ADMISSION (R67). -/

namespace Sys2Proof.Machine

/-! ## Bits and numbers of a result -/

theorem fieldAt_toNat {n : Nat} (x : BitVec n) (first len : Nat) : (fieldAt x first len).toNat = x.toNat / 2 ^ (n - first - len) % 2 ^ len := by
  rw [fieldAt, BitVec.extractLsb'_toNat, Nat.shiftRight_eq_div_pow]

theorem bitsAt_eq {result : List Byte} {index low count : Nat} (h : low + count ≤ 8) :
    bitsAt result index low count = (fieldAt (result.getD index 0) (8 - low - count) count).toNat := by
  rw [bitsAt, fieldAt_toNat, show 8 - (8 - low - count) - count = low by omega]

section
variable {result rest : List Byte} {first : Nat}

theorem numberAt_byte {b : Byte} (h : result.drop first = b :: rest) : numberAt result first 1 = b.toNat := by
  simp [numberAt, h]

theorem numberAt_twoBytes {v : BitVec 16} (h : result.drop first = twoBytes v ++ rest) : numberAt result first 2 = v.toNat := by
  have hv := v.isLt
  simp only [numberAt, h, twoBytes, List.cons_append, List.nil_append, List.take_succ_cons, List.take_zero, List.foldl_cons, List.foldl_nil,
    fieldAt_toNat]
  omega

theorem numberAt_fourBytes {v : BitVec 32} (h : result.drop first = fourBytes v ++ rest) : numberAt result first 4 = v.toNat := by
  have hv := v.isLt
  simp only [numberAt, h, fourBytes, List.cons_append, List.nil_append, List.take_succ_cons, List.take_zero, List.foldl_cons, List.foldl_nil,
    fieldAt_toNat]
  omega

theorem numberAt_drop (result : List Byte) (first k count : Nat) : numberAt (result.drop first) k count = numberAt result (first + k) count := by
  rw [numberAt, numberAt, List.drop_drop]

theorem bitsAt_drop (result : List Byte) (first k low count : Nat) :
    bitsAt (result.drop first) k low count = bitsAt result (first + k) low count := by
  rw [bitsAt, bitsAt, List.getD_eq_getElem?_getD, List.getD_eq_getElem?_getD, List.getElem?_drop]

end

theorem flagBit_toNat (b : Bool) : (flagBit b).toNat = b.toNat := by revert b; decide

theorem isSome_toNat_iff {α : Type} {o : Option α} : o.isSome.toNat = 1 ↔ o ≠ none := by cases o <;> simp

/-! ## A configuration (R191) -/

theorem Configuration.shapeWord_fields (c : Configuration) : fieldAt c.shapeWord 0 3 = c.width.code
    ∧ fieldAt c.shapeWord 3 3 = countBits c.count ∧ fieldAt c.shapeWord 6 1 = 0 ∧ fieldAt c.shapeWord 7 9 = offsetBits c.placement := by
  have h : c.shapeWord = c.width.code ++ countBits c.count ++ (0 : BitVec 1) ++ offsetBits c.placement := rfl
  rw [eq_append_iff (m := 7) (n := 9), eq_append_iff (m := 6) (n := 1), eq_append_iff (m := 3) (n := 3)] at h
  simpa only [fieldAt_fieldAt, Nat.reduceAdd, Nat.reduceLeDiff, and_assoc] using h

/-- Four bytes that are a configuration's lie as R191 gives. -/
theorem configLayout_of_drop {c : Configuration} {result rest : List Byte} {first : Nat} (h : result.drop first = c.bytes ++ rest) :
    ConfigLayout c result first := by
  obtain ⟨hw, hn, h0, ho⟩ := c.shapeWord_fields
  have hshape : numberAt result first 2 = c.shapeWord.toNat := numberAt_twoBytes (h.trans (List.append_assoc _ _ _))
  have hlist : numberAt result (first + 2) 2 = c.listeners.toNat := by
    refine numberAt_twoBytes (rest := rest) ?_
    rw [← List.drop_drop, h]
    rfl
  have hbyte : result.getD first 0 = fieldAt c.shapeWord 0 8 := by
    have hd := bitsAt_drop result first 0
    rw [List.getD_eq_getElem?_getD, ← Nat.add_zero first, ← List.getElem?_drop, h]
    rfl
  have bits {low count : Nat} (hle : low + count ≤ 8) :
      bitsAt result first low count = (fieldAt c.shapeWord (8 - low - count) count).toNat := by
    rw [bitsAt_eq hle, hbyte, fieldAt_fieldAt _ (by omega) (by omega), Nat.zero_add]
  have offset : numberAt result first 2 % 512 = (offsetBits c.placement).toNat := by
    rw [hshape, ← ho, fieldAt_toNat]
    simp
  refine ⟨?_, fun h1 h8 => ?_, ?_, fun o hp hlt => ?_, fun hp => ?_, fun p => ?_⟩
  · rw [bits (by omega), hw]
    cases c.width <;> rfl
  · rw [bits (by omega), hn, countBits, BitVec.toNat_ofNat]
    omega
  · rw [bits (by omega), h0]
    rfl
  · rw [offset, hp, offsetBits, Option.getD_some, BitVec.toNat_ofNat, Nat.mod_eq_of_lt (by omega)]
  · rw [offset, hp]
    rfl
  · rw [hlist]
    rfl

/-! ## QUERY (R62) -/

section
variable (l : Lease)

theorem queryResult_drop_active : (queryResult l).drop 12 = l.active.bytes ++ (configBytes l.sealedConfig ++ configBytes l.staged) := rfl

theorem queryResult_drop_sealed : (queryResult l).drop 16 = configBytes l.sealedConfig ++ configBytes l.staged := rfl

theorem queryResult_drop_staged : (queryResult l).drop 20 = configBytes l.staged ++ [] := by
  have h : (queryResult l).drop 20 = (configBytes l.sealedConfig ++ configBytes l.staged).drop 4 := rfl
  rw [h, List.append_nil, ← configBytes_length l.sealedConfig, List.drop_left]

/-- The first byte: the flags, the direction and the state. -/
theorem queryResult_flags : let b := (queryResult l).getD 0 0
    fieldAt b 0 1 = flagBit l.staged.isSome ∧ fieldAt b 1 1 = flagBit l.expiry.isSome ∧ fieldAt b 2 1 = flagBit l.heard
      ∧ fieldAt b 3 1 = flagBit l.shapeOpen ∧ fieldAt b 4 1 = flagBit l.listenOpen ∧ fieldAt b 5 1 = l.direction.bit
      ∧ fieldAt b 6 2 = l.state.bits := by
  intro b
  have h : b = flagBit l.staged.isSome ++ flagBit l.expiry.isSome ++ flagBit l.heard ++ flagBit l.shapeOpen
      ++ flagBit l.listenOpen ++ l.direction.bit ++ l.state.bits := rfl
  rw [eq_append_iff (m := 6) (n := 2), eq_append_iff (m := 5) (n := 1), eq_append_iff (m := 4) (n := 1), eq_append_iff (m := 3) (n := 1),
    eq_append_iff (m := 2) (n := 1), eq_append_iff (m := 1) (n := 1)] at h
  simpa only [fieldAt_fieldAt, Nat.reduceAdd, Nat.reduceLeDiff, and_assoc] using h

/-- The third byte: the owner and the source. -/
theorem queryResult_positions : let b := (queryResult l).getD 2 0
    fieldAt b 0 4 = posBits l.owner ∧ fieldAt b 4 4 = posBits l.source := by
  intro b
  have h : b = posBits l.owner ++ posBits l.source := rfl
  rwa [eq_append_iff (m := 4) (n := 4)] at h

/-- The sixth byte: the sealed configuration and the mark. -/
theorem queryResult_mark : let b := (queryResult l).getD 5 0
    fieldAt b 0 1 = flagBit l.sealedConfig.isSome ∧ fieldAt b 1 4 = markRequesterBits l.mark ∧ fieldAt b 5 1 = markStageBit l.mark
      ∧ fieldAt b 6 2 = markCauseBits l.mark := by
  intro b
  have h : b = flagBit l.sealedConfig.isSome ++ markRequesterBits l.mark ++ markStageBit l.mark ++ markCauseBits l.mark := rfl
  rw [eq_append_iff (m := 6) (n := 2), eq_append_iff (m := 5) (n := 1), eq_append_iff (m := 1) (n := 4)] at h
  simpa only [fieldAt_fieldAt, Nat.reduceAdd, Nat.reduceLeDiff, and_assoc] using h

theorem posBits_toNat (p : Position) : (posBits p).toNat = p.val := toNat_of_eq_posBits rfl

theorem queryResult_layout : QueryLayout l (queryResult l) := by
  obtain ⟨hstaged, hexp, hheard, hshape, hlisten, hdir, hstate⟩ := queryResult_flags l
  obtain ⟨howner, hsource⟩ := queryResult_positions l
  obtain ⟨hsealed, hreq, hstage, hcause⟩ := queryResult_mark l
  refine ⟨queryResult_length l, ?_, ?_, ?_, ?_, ?_, ?_, ?_, ?_, ?_, ?_, ?_, ?_, ?_, ?_, ?_, ?_, ?_, ?_, ?_, fun c hc => ?_, fun hno => ?_,
    fun c hc => ?_, fun hno => ?_⟩
  · rw [bitsAt_eq (by omega), hstate]
    cases l.state <;> rfl
  · rw [bitsAt_eq (by omega), hdir]
    cases l.direction <;> rfl
  · rw [bitsAt_eq (by omega), hlisten, flagBit_toNat]
  · rw [bitsAt_eq (by omega), hshape, flagBit_toNat]
  · rw [bitsAt_eq (by omega), hheard, flagBit_toNat]
  · rw [bitsAt_eq (by omega), hexp, flagBit_toNat, isSome_toNat_iff]
  · rw [bitsAt_eq (by omega), hstaged, flagBit_toNat, isSome_toNat_iff]
  · exact numberAt_byte rfl
  · rw [bitsAt_eq (by omega), howner, posBits_toNat]
  · rw [bitsAt_eq (by omega), hsource, posBits_toNat]
  · have hterm : l.term.toNat < 65536 := by have := l.term.isLt; omega
    rw [numberAt_twoBytes rfl, BitVec.toNat_setWidth, Nat.mod_eq_of_lt hterm]
  · rw [bitsAt_eq (by omega), hcause]
    rcases l.mark with _ | ⟨_ | _ | _, _⟩ <;> rfl
  · rw [bitsAt_eq (by omega), hstage]
    rcases l.mark with _ | ⟨_, _ | _⟩ <;> rfl
  · rw [bitsAt_eq (by omega), hreq]
    rcases l.mark with _ | ⟨p | _ | _, _⟩
    · rfl
    · exact posBits_toNat p
    · rfl
    · rfl
  · rw [bitsAt_eq (by omega), hsealed, flagBit_toNat, isSome_toNat_iff]
    simp only [← Option.isSome_iff_ne_none, Option.isSome_iff_exists, Lease.sealedConfig_some]
  · rw [numberAt_byte rfl]
    cases l.base with
    | none => rfl
    | some b => rw [baseByte, BitVec.toNat_ofNat, Nat.mod_eq_of_lt (by omega)]
  · exact numberAt_byte rfl
  · rw [numberAt_fourBytes rfl]
    cases l.expiry <;> rfl
  · exact configLayout_of_drop (queryResult_drop_active l)
  · have hd := queryResult_drop_sealed l
    rw [Lease.sealedConfig_some.2 hc] at hd
    exact configLayout_of_drop hd
  · have hd := queryResult_drop_sealed l
    have hnone : l.sealedConfig = none := Option.eq_none_iff_forall_ne_some.2 fun c hc => hno c (Lease.sealedConfig_some.1 hc)
    rw [hnone] at hd
    rw [numberAt, hd]
    rfl
  · have hd := queryResult_drop_staged l
    rw [hc] at hd
    exact configLayout_of_drop hd
  · have hd := queryResult_drop_staged l
    rw [hno] at hd
    rw [numberAt, hd]
    rfl

end

/-- A QUERY passes the lease-state step in every state (R48). -/
theorem State.target_any {s : State} {h : Handle} {l : Lease} (he : s.leases[h.index] = ⟨h.generation, some l⟩) :
    s.target h true true = .ok l := by
  obtain ⟨st, hn⟩ : ∃ st, s.Names h l st := ⟨l.state, he, rfl⟩
  rw [State.target_names hn]
  cases st <;> rfl

theorem hostQuery_of_bytes {s : State} {h : Handle} {l : Lease} (he : s.leases[h.index] = ⟨h.generation, some l⟩) (clear : Bool) :
    hostQuery s (h.bytes ++ [flagByte clear])
      = .ok ⟨.done, s.onEntry h.index (queryEvent s.leases[h.index] l clear), queryResult l⟩ := by
  simp only [hostQuery, readQuery_iff.2 rfl, State.target_any he]

theorem exec_query (s : State) : exec .query s = .next (s.takeHost (· == 9) hostQuery) := rfl

/-! ## RESOLVE (R10, R63) -/

theorem State.resolve_notFound {s : State} {n : Stream} (h : ∀ i l, s.lease? i = some l → l.stream ≠ n) : s.resolve n = .error .notFound := by
  simp only [State.resolve, State.streamMap_eq_none.2 h]

theorem State.resolve_found {s : State} {n : Stream} {i : LeaseIndex} {l : Lease} (hl : s.lease? i = some l) (hn : l.stream = n)
    (only : ∀ j m, s.lease? j = some m → m.stream = n → j = i) : s.resolve n = .ok (i, l) := by
  cases hm : s.streamMap n with
  | none => exact absurd hn (State.streamMap_eq_none.1 hm i l hl)
  | some j =>
    obtain ⟨m, hj, hs⟩ := State.streamMap_some hm
    obtain rfl := only j m hj hs
    simp only [State.resolve, hm, hl]

theorem hostResolve_of_stream {n : Stream} (h : n ≠ 0) (s : State) : hostResolve s [n]
    = (s.resolve n).map fun r => ⟨.done, s, hostResolveResult (s.handleOf r.1) r.2⟩ := by
  simp only [hostResolve, readResolve_iff.2 ⟨rfl, h⟩]
  cases s.resolve n <;> rfl

theorem streamPayload_operation (n : Stream) (unread : BitVec 29) (p : Position) (o : Bool) :
    (⟨p, streamPayload n unread, o⟩ : QueueEntry).operation = 7 := (streamPayload_iff.1 rfl).1

theorem memberResolve_of_payload {n : Stream} (h : n ≠ 0) (s : State) (unread : BitVec 29) (p : Position) (o : Bool) :
    memberResolve s ⟨p, streamPayload n unread, o⟩ = (s.resolve n).map fun r => ⟨.done, s, s.handleOf r.1, resolveResult r.2⟩ := by
  have hread := (QueueEntry.stream_iff (streamPayload_operation n unread p o)).2 ⟨h, unread, rfl⟩
  simp only [memberResolve, hread]
  cases s.resolve n <;> rfl

/-- Nothing that a RESOLVE reads is of the engine. -/
theorem State.resolve_dequeued (s : State) (rest : List QueueEntry) (n : Stream) : (s.dequeued rest).resolve n = s.resolve n := rfl

theorem exec_resolve (s : State) : exec .resolve s = .next (s.takeHost (· == 10) hostResolve) := rfl
theorem exec_memberResolve (s : State) : exec .memberResolve s = .next (s.takeMember 7 noHandle memberResolve) := rfl

/-- Settles O24: QUERY answers the record before its event, RESOLVE the lease that the map finds. -/
theorem queryAndResolveRead : Obligations.QueryAndResolveRead := by
  unfold Obligations.QueryAndResolveRead
  refine ⟨fun s h l tag he => ⟨fun hask => ?_, fun hask => ?_⟩, queryResult_layout, fun s n h0 => ⟨fun hno => ⟨fun tag hask => ?_,
    fun p unread o rest hask => ?_⟩, fun i l hl hn only => ⟨fun tag hask => ?_, fun p unread o rest hask => ?_⟩⟩⟩
  · have hm := hostQuery_of_bytes he false
    rw [exec_query, State.takeHost_granted hask rfl (.inl rfl) hm, queryEvent, if_neg (by decide), State.onEntry_unchanged]
  · have hm := hostQuery_of_bytes he true
    rw [exec_query, State.takeHost_granted hask rfl (.inl rfl) hm, queryEvent, if_pos rfl, State.onEntry_put]
  · have hm := hostResolve_of_stream h0 s
    rw [State.resolve_notFound hno] at hm
    rw [exec_resolve, State.takeHost_refused hask rfl hm]
  · have hm := memberResolve_of_payload h0 (s.dequeued rest) unread p o
    rw [State.resolve_dequeued, State.resolve_notFound hno] at hm
    rw [exec_memberResolve, State.takeMember_refused hask (streamPayload_operation n unread p o) hm]
    rfl
  · have hm := hostResolve_of_stream h0 s
    rw [State.resolve_found hl hn only] at hm
    rw [exec_resolve, State.takeHost_granted hask rfl (.inl rfl) hm]
    rfl
  · have hm := memberResolve_of_payload h0 (s.dequeued rest) unread p o
    rw [State.resolve_dequeued, State.resolve_found hl hn only] at hm
    rw [exec_memberResolve, State.takeMember_ok hask (streamPayload_operation n unread p o) hm,
      State.pend_eq _ _ rest _ _ _ rfl, streamPayload_operation]
    exact congrArg _ (State.memberAnswered_setEngine s _ _ rest 7 _ _ _)

end Sys2Proof.Machine
end

section
/-! PROOFS. The requests on the device (section 3.4): READ_MEMBER, SET_EXPECTED, SET_ADMISSION, CHAIN_START, CHAIN_STOP,
FETCH_ATTENTION and READ_STATUS (R66, R67, R68). -/

namespace Sys2Proof.Machine

/-! ## The member record (R67, R115, R191) -/

section
variable (m : Member) (queued : Bool) (sources listens : Nat)

theorem readMemberResult_flags : let b := (readMemberResult m queued sources listens).getD 1 0
    fieldAt b 0 4 = 0 ∧ fieldAt b 4 1 = flagBit m.answer.isSome ∧ fieldAt b 5 1 = flagBit queued
      ∧ fieldAt b 6 1 = flagBit m.expected.isSome ∧ fieldAt b 7 1 = flagBit m.identity.isSome := by
  intro b
  have h : b = (0 : BitVec 4) ++ flagBit m.answer.isSome ++ flagBit queued ++ flagBit m.expected.isSome ++ flagBit m.identity.isSome := rfl
  rw [eq_append_iff (m := 7) (n := 1), eq_append_iff (m := 6) (n := 1), eq_append_iff (m := 5) (n := 1), eq_append_iff (m := 4) (n := 1)] at h
  simpa only [fieldAt_fieldAt, Nat.reduceAdd, Nat.reduceLeDiff, and_assoc] using h

theorem readMemberResult_counts : (readMemberResult m queued sources listens).drop 10
    = [BitVec.ofNat 8 m.misses, BitVec.ofNat 8 sources, BitVec.ofNat 8 listens] := by
  unfold readMemberResult
  cases m.identity <;> cases m.expected <;> rfl

theorem readMemberResult_count {k n : Nat} (hk : ((readMemberResult m queued sources listens).drop 10)[k]? = some (BitVec.ofNat 8 n))
    (h : n < 256) : numberAt (readMemberResult m queued sources listens) (10 + k) 1 = n := by
  rw [← numberAt_drop, readMemberResult_counts]
  rw [readMemberResult_counts] at hk
  match k, hk with
  | 0, hk | 1, hk | 2, hk =>
    rw [numberAt_byte rfl, Option.some.inj hk, BitVec.toNat_ofNat, Nat.mod_eq_of_lt h]
  | k + 3, hk => cases hk

theorem readMemberResult_layout : MemberLayout m queued sources listens (readMemberResult m queued sources listens) := by
  obtain ⟨hzero, hanswer, hqueued, hexp, hid⟩ := readMemberResult_flags m queued sources listens
  refine ⟨readMemberResult_length m queued sources listens, ?_, ?_, ?_, ?_, ?_, ?_, fun d hd => ?_, fun hd => ?_, fun x hx => ?_, fun hx => ?_,
    fun hlt => readMemberResult_count m queued sources listens (k := 0) (by rw [readMemberResult_counts]; rfl) hlt,
    fun hlt => readMemberResult_count m queued sources listens (k := 1) (by rw [readMemberResult_counts]; rfl) hlt,
    fun hlt => readMemberResult_count m queued sources listens (k := 2) (by rw [readMemberResult_counts]; rfl) hlt⟩
  · rw [numberAt_byte rfl]
    cases m.state <;> rfl
  · rw [bitsAt_eq (by omega), hid, flagBit_toNat, isSome_toNat_iff]
  · rw [bitsAt_eq (by omega), hexp, flagBit_toNat, isSome_toNat_iff]
  · rw [bitsAt_eq (by omega), hqueued, flagBit_toNat]
  · rw [bitsAt_eq (by omega), hanswer, flagBit_toNat, isSome_toNat_iff]
  · rw [bitsAt_eq (by omega), hzero]
    rfl
  · have hdrop : (readMemberResult m queued sources listens).drop 2 = twoBytes d.vendor ++ ([d.product, d.revision, d.sourceLimit ++ d.listenLimit]
        ++ (readMemberResult m queued sources listens).drop 7) := by
      unfold readMemberResult
      rw [hd]
      rfl
    have hlimits : (readMemberResult m queued sources listens).getD 6 0 = d.sourceLimit ++ d.listenLimit := by
      unfold readMemberResult
      rw [hd]
      rfl
    have byte {k : Nat} : numberAt (readMemberResult m queued sources listens) (2 + k) 1
        = numberAt (twoBytes d.vendor ++ ([d.product, d.revision, d.sourceLimit ++ d.listenLimit]
          ++ (readMemberResult m queued sources listens).drop 7)) k 1 := by
      rw [← numberAt_drop, hdrop]
    obtain ⟨hs, hl⟩ := (eq_append_iff (m := 4) (n := 4)).1 hlimits
    exact ⟨numberAt_twoBytes hdrop, (byte (k := 2)).trans (numberAt_byte rfl), (byte (k := 3)).trans (numberAt_byte rfl),
      by rw [bitsAt_eq (by omega), hs], by rw [bitsAt_eq (by omega), hl]⟩
  · unfold readMemberResult
    rw [hd]
    rfl
  · have hdrop : (readMemberResult m queued sources listens).drop 7 = twoBytes x.vendor ++ ([x.product]
        ++ (readMemberResult m queued sources listens).drop 10) := by
      unfold readMemberResult
      rw [hx]
      cases m.identity <;> rfl
    refine ⟨numberAt_twoBytes hdrop, ?_⟩
    rw [← numberAt_drop _ 7 2, hdrop]
    exact numberAt_byte rfl
  · unfold readMemberResult
    rw [hx]
    cases m.identity <;> rfl

end

theorem exec_readMember (s : State) : exec .readMember s = .next (s.takeHost (· == 14) hostReadMember) := rfl
theorem exec_setExpected (s : State) : exec .setExpected s = .next (s.takeHost (· == 15) hostSetExpected) := rfl
theorem exec_setAdmission (s : State) : exec .setAdmission s = .next (s.takeHost (· == 16) hostSetAdmission) := rfl

/-- Settles O30: each request is answered DONE with its one effect, and the result lies as its parts are written. -/
theorem memberRecordRequests : Obligations.MemberRecordRequests := by
  unfold Obligations.MemberRecordRequests
  refine ⟨readMemberResult_layout, fun s tag p hp => ⟨fun hask => ?_, fun x a b c hask => ?_, fun m hask => ?_⟩⟩
  · have hm : hostReadMember s [posByte p] = .ok ⟨.done, s, readMemberResult (s.member p) (s.queued p) (s.sourceCount p) (s.listenCount p)⟩ := by
      simp only [hostReadMember, readReadMember_iff.2 ⟨rfl, hp⟩]
    rw [exec_readMember, State.takeHost_done hask rfl hm]
    rfl
  · have hm : hostSetExpected s (expectedParams p x [a, b, c]) = .ok ⟨.done, s.setMember p { s.member p with expected := x }, []⟩ := by
      simp only [hostSetExpected, readSetExpected_iff.2 ⟨hp, [a, b, c], rfl, rfl⟩]
    rw [exec_setExpected, State.takeHost_done hask rfl hm]
  · have hm : hostSetAdmission s [m.code] = .ok ⟨.done, { s with members := { s.members with admission := m } }, []⟩ := by
      simp only [hostSetAdmission, readSetAdmission_iff.2 rfl]
    rw [exec_setAdmission, State.takeHost_done hask rfl hm]

/-! ## The chain (R66) -/

theorem exec_chainStart (s : State) : exec .chainStart s = .next (s.takeHost (· == 17) hostChainStart) := rfl

/-- Settles O31: the two outcomes of the request once its parameters are read. -/
theorem chainStartBeginsAtFrameZero : Obligations.ChainStartBeginsAtFrameZero := by
  unfold Obligations.ChainStartBeginsAtFrameZero
  intro s tag rate limit lead h1 h2 h3 h4 ps hask
  have hread : readChainStart ps = some (rate, limit, lead) := readChainStart_iff.2 ⟨rfl, h1, h2, h3, h4⟩
  refine ⟨fun hs => ?_, fun hr => ?_⟩
  · have hm : hostChainStart s ps = .ok ⟨.done, s.startChain rate limit lead, []⟩ := by
      simp only [hostChainStart, hread, hs, reduceCtorEq, if_false]
    rw [exec_chainStart, State.takeHost_done hask rfl hm]
    rfl
  · have hm : hostChainStart s ps = .error .busy := by simp only [hostChainStart, hread, hr, if_true]
    rw [exec_chainStart, State.takeHost_refused hask rfl hm]

/-- An event on every entry that raises nothing and stages nothing changes the entries alone. -/
theorem State.onEveryEntry_silent {s : State} {f : LeaseIndex → Entry → EntryEvent} (hr : ∀ i e, (f i e).raised = [])
    (hs : ∀ i e, (f i e).staged = false) : s.onEveryEntry f = { s with leases := (s.onEveryEntry f).leases } := by
  have hnone : (allLeases.any fun i => (f i s.leases[i]).staged) = false := by simp [hs]
  have hatt := State.onEveryEntry_attention_of_silent (s := s) hr
  unfold State.onEveryEntry at hatt ⊢
  simp only [hnone, Bool.false_eq_true, if_false] at hatt ⊢
  rw [hatt]

theorem stopEntry_staged (e : Entry) : (stopEntry e).staged = false := by
  unfold stopEntry
  split
  · split <;> rfl
  · rfl

theorem State.stopChain_entry (s : State) (i : LeaseIndex) : s.stopChain.leases[i] = (stopEntry s.leases[i]).entry :=
  s.onEveryEntry_entry (fun _ e => stopEntry e) i

theorem State.stopChain_frame (s : State) : s.stopChain = { s with
    leases := s.stopChain.leases
    engine := { s.engine with queue := [] }
    publisher := { s.publisher with stage := .idle }
    members := { s.members with records := s.stopChain.members.records, missLimit := none }
    chain := { ChainEngine.reset with counter := s.chain.counter, rate := s.chain.rate }
    localPort := LocalPort.silent } := by
  have h := State.onEveryEntry_silent (s := s) (fun _ => stopEntry_raised) fun _ => stopEntry_staged
  unfold State.stopChain
  dsimp only
  generalize (s.onEveryEntry fun _ e => stopEntry e) = t at h ⊢
  rw [h]

/-- Settles O32: the entries by `stopEntry`, the records emptied, and the rest as the stop writes it. -/
theorem chainStopFreesOrKeeps : Obligations.ChainStopFreesOrKeeps := by
  unfold Obligations.ChainStopFreesOrKeeps
  intro s tag hask
  have hread : readNothing [] = some () := rfl
  refine ⟨fun hs => ?_, fun hr => ⟨s.stopChain, ?_, fun i l hl => ⟨fun hc => ?_, fun hc => ?_⟩, fun i hl => ?_, fun p _ => ?_, ?_⟩⟩
  · have hm : hostChainStop s [] = .ok ⟨.done, s, []⟩ := by simp only [hostChainStop, hread, hs, reduceCtorEq, if_false]
    rw [exec_chainStop, State.takeHost_done hask rfl hm]
  · have hm : hostChainStop s [] = .ok ⟨.done, s.stopChain, []⟩ := by simp only [hostChainStop, hread, hr, if_true]
    rw [exec_chainStop, State.takeHost_done hask rfl hm]
  · rw [State.stopChain_entry, State.lease?_entry hl]
    simp only [stopEntry, if_pos hc]
    rfl
  · rw [State.stopChain_entry, State.lease?_entry hl]
    simp only [stopEntry, if_neg hc]
    rfl
  · have hl' : s.leases[i].lease = none := hl
    rw [State.stopChain_entry]
    simp only [stopEntry, hl', EntryEvent.unchanged]
  · rw [State.stopChain_member]
    rfl
  · exact s.stopChain_frame

/-! ## FETCH_ATTENTION and READ_STATUS (R68, R169) -/

/-- The first element of a range that satisfies a test. -/
theorem find_finRange_iff {n : Nat} {p : Fin n → Bool} {k : Fin n} :
    (List.finRange n).find? p = some k ↔ p k = true ∧ ∀ j, j < k → p j = false := by
  rw [List.find?_eq_some_iff_getElem]
  constructor
  · rintro ⟨hk, i, hi, rfl, hlow⟩
    refine ⟨hk, fun j hj => ?_⟩
    simpa using hlow j.val (by simpa [Fin.lt_def] using hj)
  · rintro ⟨hk, hlow⟩
    exact ⟨hk, k.val, by simp, by simp, fun j hj => by simp [hlow ⟨j, by omega⟩ hj]⟩

theorem memberPositions_eq : memberPositions = (List.finRange 15).map positionAt := by decide

/-- The first member position that satisfies a test, by its place in the records. -/
theorem find_memberPositions_at {p : Position → Bool} {k : Fin 15} (hk : p (positionAt k) = true) (hlow : ∀ j, j < k → p (positionAt j) = false) :
    memberPositions.find? p = some (positionAt k) := by
  have hfind : (List.finRange 15).find? (p ∘ positionAt) = some k := find_finRange_iff.2 ⟨hk, hlow⟩
  rw [memberPositions_eq, List.find?_map, hfind, Option.map_some]

section
variable {a : AttentionSet}

theorem AttentionSet.fetch_device (h : a.device ≠ 0) : a.fetch = ({ a with device := 0 }, [1, 0, 0, 0, a.device.zeroExtend 8]) := by
  rw [AttentionSet.fetch, if_pos h]

theorem AttentionSet.fetch_member {k : Fin 15} (hd : a.device = 0) (hk : a.members[k] ≠ 0) (hlow : ∀ j, j < k → a.members[j] = 0) :
    a.fetch = ({ a with members := a.members.set k 0 }, [2, BitVec.ofNat 8 (k.val + 1), 0, 0, a.members[k].zeroExtend 8]) := by
  have hfind : (memberPositions.find? fun p => a.members[memberIndex p] != 0) = some (positionAt k) :=
    find_memberPositions_at (by simpa [memberIndex_positionAt] using hk) fun j hj => by simpa [memberIndex_positionAt] using hlow j hj
  rw [AttentionSet.fetch, if_neg (not_not.2 hd)]
  simp only [hfind, memberIndex_positionAt]
  rfl

theorem AttentionSet.fetch_noMember (hm : ∀ k : Fin 15, a.members[k] = 0) :
    (memberPositions.find? fun p => a.members[memberIndex p] != 0) = none := by
  simp [hm]

theorem AttentionSet.fetch_lease {i : LeaseIndex} {item : LeaseItem} (hd : a.device = 0) (hm : ∀ k : Fin 15, a.members[k] = 0)
    (hi : a.leases[i] = some item) (hlow : ∀ j, j < i → a.leases[j] = none) :
    a.fetch = ({ a with leases := a.leases.set i none },
      [3, BitVec.ofNat 8 i.val, BitVec.ofNat 8 i.val, item.generation.zeroExtend 8, item.reasons.zeroExtend 8]) := by
  have hfind : (allLeases.find? fun i => a.leases[i].isSome) = some i :=
    find_finRange_iff.2 ⟨by rw [hi]; rfl, fun j hj => by rw [hlow j hj]; rfl⟩
  rw [AttentionSet.fetch, if_neg (not_not.2 hd)]
  simp only [AttentionSet.fetch_noMember hm, hfind, hi]
  rfl

theorem AttentionSet.fetch_empty (hd : a.device = 0) (hm : ∀ k : Fin 15, a.members[k] = 0) (hl : ∀ i : LeaseIndex, a.leases[i] = none) :
    a.fetch = (a, [0, 0, 0, 0, 0]) := by
  have hfind : (allLeases.find? fun i => a.leases[i].isSome) = none := by simp [hl]
  rw [AttentionSet.fetch, if_neg (not_not.2 hd)]
  simp only [AttentionSet.fetch_noMember hm, hfind]

end

theorem exec_readStatus (s : State) : exec .readStatus s = .next (s.takeHost (· == 20) hostReadStatus) := rfl

theorem State.statusResult_eq (s : State) : s.statusResult = [if s.chain.state = .running then 1 else 0, s.chain.rate.code]
    ++ fourBytes s.chain.counter ++ [s.publisher.epoch, s.publisher.stage.code, s.publisher.mode.code, s.publisher.window,
      BitVec.ofNat 8 s.leaseCount, BitVec.ofNat 8 s.engine.queue.length, BitVec.ofNat 8 s.attention.items] := by
  have hstate : s.chain.state.code = if s.chain.state = .running then 1 else 0 := by cases s.chain.state <;> rfl
  rw [State.statusResult, hstate]

/-- Settles O33: the fetch takes the first item in the order of R169, and the status is the bytes of R191. -/
theorem attentionAndStatusAreRead : Obligations.AttentionAndStatusAreRead := by
  unfold Obligations.AttentionAndStatusAreRead
  intro s tag
  refine ⟨fun hask => ?_, fun hask => ?_⟩
  · have fetched {a : AttentionSet} {res : List Byte} (h : s.attention.fetch = (a, res)) :
        exec .fetchAttention s = .next (({ s with attention := a } : State).hostAnswered 19 tag [] .done res) := by
      have hm : hostFetchAttention s [] = .ok ⟨.done, { s with attention := a }, res⟩ := by
        simp only [hostFetchAttention, readNothing_iff.2, h]
      rw [exec_fetchAttention, State.takeHost_done hask rfl hm]
    exact ⟨fun hd => fetched (AttentionSet.fetch_device hd), fun k hd hk hlow => fetched (AttentionSet.fetch_member hd hk hlow),
      fun i item hd hm hi hlow => fetched (AttentionSet.fetch_lease hd hm hi hlow),
      fun hd hm hl => fetched (AttentionSet.fetch_empty hd hm hl)⟩
  · have hm : hostReadStatus s [] = .ok ⟨.done, s, s.statusResult⟩ := by simp only [hostReadStatus, readNothing_iff.2]
    rw [exec_readStatus, State.takeHost_done hask rfl hm, State.statusResult_eq]
    rfl

end Sys2Proof.Machine
end

section
/-! PROOFS. What begins a set: a sealing (R82, R83, R84, R89), PUBLISH (R79) and REPACK (R38, R40). -/

namespace Sys2Proof.Machine

section
variable {s : State} {deltas : List Delta}

/-! ## The notices of a set (R84, R86) -/

theorem State.noticesFor_nodup (s : State) (deltas : List Delta) : (s.noticesFor deltas).Nodup := by
  have hpos : memberPositions.Nodup := by decide
  have hidx : deltas.zipIdx.Pairwise fun a b => a.2 ≠ b.2 :=
    List.pairwise_map.1 (List.nodup_zipIdx_map_snd deltas)
  unfold State.noticesFor
  refine List.nodup_flatMap.2 ⟨fun q _ => (hpos.filter _).map fun p p' h => (Notice.mk.inj h).2.1, hidx.imp fun {a b} hab => ?_⟩
  simp only [Function.onFun, List.disjoint_left, List.mem_map, not_exists, not_and]
  rintro n ⟨p, -, rfl⟩ p' - h
  exact hab (Notice.mk.inj h).1.symm

theorem openAt_iff {ns : List Notice} {p : Position} : openAt ns p = true ↔ ∃ n ∈ ns, n.position = p ∧ n.acked = false := by
  simp [openAt]

/-- The first member position that satisfies a test is the lowest. -/
theorem find_memberPositions_iff {P : Position → Bool} {p : Position} (h0 : P 0 = false) :
    memberPositions.find? P = some p ↔ P p = true ∧ ∀ q, P q = true → p ≤ q := by
  have hpos {q : Position} (hq : P q = true) : q ≠ 0 := fun hc => by rw [hc, h0] at hq; cases hq
  constructor
  · intro h
    rw [memberPositions_eq, List.find?_map, Option.map_eq_some_iff] at h
    obtain ⟨k, hk, rfl⟩ := h
    obtain ⟨hk, hlow⟩ := find_finRange_iff.1 hk
    refine ⟨hk, fun q hq => ?_⟩
    by_contra hlt
    have hj : memberIndex q < k := by
      have hval : (positionAt (memberIndex q)).val = q.val := by rw [positionAt_memberIndex (hpos hq)]
      simp only [positionAt, Fin.le_def, Fin.lt_def, not_le] at hval hlt ⊢
      omega
    have := hlow _ hj
    rw [Function.comp, positionAt_memberIndex (hpos hq), hq] at this
    cases this
  · rintro ⟨hp, hlow⟩
    rw [← positionAt_memberIndex (hpos hp)]
    refine find_memberPositions_at (by rwa [positionAt_memberIndex (hpos hp)]) fun j hj => Bool.eq_false_iff.2 fun hc => ?_
    have hle := hlow _ hc
    have hval : (positionAt (memberIndex p)).val = p.val := by rw [positionAt_memberIndex (hpos hp)]
    simp only [positionAt, Fin.le_def, Fin.lt_def] at hval hle hj
    omega

/-- The mark of a new set is the lowest position that has a notice (R86). -/
theorem State.newSet_rotation {p : Position} : (s.newSet deltas).rotation = some p
    ↔ (∃ n ∈ s.noticesFor deltas, n.position = p) ∧ ∀ n ∈ s.noticesFor deltas, p ≤ n.position := by
  have hopen {q : Position} : openAt (s.noticesFor deltas) q = true ↔ ∃ n ∈ s.noticesFor deltas, n.position = q := by
    rw [openAt_iff]
    exact exists_congr fun n => and_congr_right fun hn => and_iff_left (State.mem_noticesFor.1 hn).1
  have h0 : openAt (s.noticesFor deltas) 0 = false := Bool.eq_false_iff.2 fun hc => by
    obtain ⟨n, hn, hp⟩ := hopen.1 hc
    exact (State.mem_noticesFor.1 hn).2.1 hp
  rw [State.newSet, find_memberPositions_iff h0, hopen]
  refine and_congr Iff.rfl ⟨fun h n hn => h _ (hopen.2 ⟨n, hn, rfl⟩), fun h q hq => ?_⟩
  obtain ⟨n, hn, rfl⟩ := hopen.1 hq
  exact h n hn

/-- A set with notices waits for them. -/
theorem State.beginSet_notifying (h : s.noticesFor deltas ≠ []) : (s.beginSet deltas).publisher.stage = .notifying (s.newSet deltas) := by
  rw [State.beginSet_stage, if_neg]
  obtain ⟨n, hn⟩ := List.exists_mem_of_ne_nil _ h
  exact not_allSettled_iff.2 ⟨n, hn, (State.mem_noticesFor.1 hn).1⟩

/-- A set without notices has its switch frame at once (R89). -/
theorem State.beginSet_switching (h : s.noticesFor deltas = []) {lead : Nat} (hl : s.chain.lead = some lead) :
    (s.beginSet deltas).publisher.stage = .switching (s.newSet deltas) (s.chain.counter + BitVec.ofNat 32 lead) := by
  rw [State.beginSet_stage, h, if_pos (by rfl), State.switchFrameNow, hl, Option.getD_some]

/-- Whom a delta concerns (R84). -/
theorem State.concerns_iff {d : Delta} {p : Position} : s.concerns d p = true ↔ s.joined p = true ∧ ∃ l, s.lease? d.handle.index = some l
    ∧ (l.source = p ∨ hasListener l.active.listeners p = true ∨ ∃ c, d.kind = .config c ∧ hasListener c.listeners p = true) := by
  unfold State.concerns
  rw [Bool.and_eq_true, any_iff]
  refine and_congr Iff.rfl (exists_congr fun l => and_congr Iff.rfl ?_)
  cases d.kind <;> simp [or_assoc]

end

/-! ## A sealing (R19, R82) -/

section
variable (s : State)

theorem sealEntry_silent (e : Entry) : (sealEntry e).raised = [] ∧ (sealEntry e).staged = false := by
  unfold sealEntry
  split
  · split <;> exact ⟨rfl, rfl⟩
  · exact ⟨rfl, rfl⟩

/-- The device once the entries are sealed and before the set begins. -/
def State.sealedEntries : State := s.onEveryEntry fun _ e => sealEntry e

theorem State.sealedEntries_frame : s.sealedEntries = { s with leases := s.sealedEntries.leases } :=
  State.onEveryEntry_silent (fun _ e => (sealEntry_silent e).1) fun _ e => (sealEntry_silent e).2

theorem State.sealStaged_eq : s.sealStaged = s.sealedEntries.beginSet s.stagedDeltas := rfl

theorem State.sealStaged_frame : s.sealStaged = { s with
    leases := s.sealStaged.leases, publisher := { s.publisher with stage := s.sealStaged.publisher.stage } } := by
  obtain ⟨leases, h⟩ : ∃ leases, s.sealedEntries = { s with leases := leases } := ⟨_, s.sealedEntries_frame⟩
  rw [State.sealStaged_eq, h]
  rfl

theorem State.sealedEntries_lease (i : LeaseIndex) : s.sealedEntries.lease? i = (s.lease? i).map Lease.afterSealing := by
  rw [← State.sealStaged_lease, State.sealStaged_eq, State.beginSet_lease]

/-- The set that a sealing makes. -/
def State.sealedSet : ChangeSet := s.sealedEntries.newSet s.stagedDeltas

theorem State.sealStaged_set? : s.sealStaged.publisher.stage.set? = some s.sealedSet := State.beginSet_set? _ _

theorem State.sealedSet_number : s.sealedSet.number = s.publisher.epoch + 1 := by
  rw [State.sealedSet, State.sealedEntries_frame]
  rfl

/-- The sealing does not touch what a notice is about: the source and the active listeners (R84). -/
theorem State.sealedEntries_concerns {d : Delta} {p : Position} : s.sealedEntries.concerns d p = true ↔ s.joined p = true
    ∧ ∃ l, s.lease? d.handle.index = some l ∧ (l.source = p ∨ hasListener l.active.listeners p = true
      ∨ ∃ c, d.kind = .config c ∧ hasListener c.listeners p = true) := by
  have hj : s.sealedEntries.joined p = s.joined p := by rw [s.sealedEntries_frame]; rfl
  rw [State.concerns_iff, hj, State.sealedEntries_lease]
  refine and_congr Iff.rfl ⟨?_, ?_⟩
  · rintro ⟨l', hl', h⟩
    obtain ⟨l, hl, rfl⟩ := Option.map_eq_some_iff.1 hl'
    obtain ⟨⟨-, -, hsrc, -⟩, -, hact, -⟩ := l.afterSealing_sub
    exact ⟨l, hl, by rwa [hsrc, hact] at h⟩
  · rintro ⟨l, hl, h⟩
    obtain ⟨⟨-, -, hsrc, -⟩, -, hact, -⟩ := l.afterSealing_sub
    exact ⟨l.afterSealing, by rw [hl]; rfl, by rwa [hsrc, hact]⟩

variable {s}

theorem State.sealStaged_sealing {i : LeaseIndex} {l : Lease} (hl : s.lease? i = some l) {q : Lease × DeltaKind} (hq : l.sealing = some q) :
    s.sealStaged.leases[i] = ⟨s.leases[i].generation, some q.1⟩ := by
  rw [State.sealStaged_entry, hl, Option.map_some, Lease.afterSealing, hq]
  rfl

theorem State.sealStaged_unstaged {i : LeaseIndex} {l : Lease} (hl : s.lease? i = some l) (h : l.hasStaged = false) :
    s.sealStaged.leases[i] = s.leases[i] := by
  rw [State.sealStaged_entry, hl, Option.map_some, Lease.afterSealing, Lease.sealing_eq_none.2 (.inl h)]
  exact (State.lease?_entry hl).symm

theorem State.sealStaged_free {i : LeaseIndex} (hl : s.lease? i = none) : s.sealStaged.leases[i] = s.leases[i] := by
  rw [State.sealStaged_entry, hl]
  have he : s.leases[i].lease = none := hl
  exact congrArg (Entry.mk s.leases[i].generation) he.symm

/-- What is staged on a lease, as the delta of it (R83). -/
theorem Lease.sealing_kind {l : Lease} {kind : DeltaKind} : (∃ l', l.sealing = some (l', kind))
    ↔ (∃ cause, l.mark = some ⟨cause, .staged⟩ ∧ kind = .retire cause) ∨ ∃ c, l.mark = none ∧ l.staged = some c ∧ kind = .config c := by
  constructor
  · rintro ⟨l', h⟩
    rcases Lease.sealing_some.1 h with ⟨cause, hm, hq⟩ | ⟨c, hm, hc, hq⟩
    · exact .inl ⟨cause, hm, congrArg Prod.snd hq⟩
    · exact .inr ⟨c, hm, hc, congrArg Prod.snd hq⟩
  · rintro (⟨cause, hm, rfl⟩ | ⟨c, hm, hc, rfl⟩)
    · exact ⟨_, Lease.sealing_some.2 (.inl ⟨cause, hm, rfl⟩)⟩
    · exact ⟨_, Lease.sealing_some.2 (.inr ⟨c, hm, hc, rfl⟩)⟩

end

/-- Settles O25: the entries by `Lease.sealing`, the set by its deltas and their notices, and nothing else. -/
theorem sealingMakesTheSet : Obligations.SealingMakesTheSet := by
  unfold Obligations.SealingMakesTheSet
  intro s t
  refine ⟨fun i l hl => ⟨fun cause hm => ?_, fun c hm hc => ?_, fun h => State.sealStaged_unstaged hl h⟩, fun i hl => State.sealStaged_free hl,
    s.sealStaged_frame, s.sealedSet, s.sealStaged_set?, s.sealedSet_number, s.stagedDeltas_ascending, fun h kind => ?_, fun k p acked => ?_,
    State.noticesFor_nodup _ _, fun p => State.newSet_rotation, State.beginSet_notifying, fun hno lead hl => ?_⟩
  · exact State.sealStaged_sealing hl (Lease.sealing_some.2 (.inl ⟨cause, hm, rfl⟩))
  · exact State.sealStaged_sealing hl (Lease.sealing_some.2 (.inr ⟨c, hm, hc, rfl⟩))
  · simp only [← Lease.sealing_kind]
    exact State.mem_stagedDeltas
  · refine State.mem_noticesFor.trans (and_congr Iff.rfl (and_congr Iff.rfl ?_))
    simp only [State.sealedEntries_concerns]
    exact ⟨fun ⟨d, hd, hj, l, hl, h⟩ => ⟨hj, d, l, hd, hl, h⟩, fun ⟨hj, d, l, hd, hl, h⟩ => ⟨d, hd, hj, l, hl, h⟩⟩
  · have hframe := s.sealedEntries_frame
    have hl' : s.sealedEntries.chain.lead = some lead := by rw [hframe]; exact hl
    have hcounter : s.sealedEntries.chain.counter = s.chain.counter := by rw [hframe]
    rw [← hcounter]
    exact State.beginSet_switching hno hl'

/-! ## PUBLISH (R64, R79) -/

theorem exec_publish (s : State) : exec .publish s = .next (s.takeHost (· == 12) hostPublish) := rfl

/-- Settles O28: the four outcomes of the request, the last one the sealing of O25. -/
theorem publishSealsWhatIsStaged : Obligations.PublishSealsWhatIsStaged := by
  unfold Obligations.PublishSealsWhatIsStaged
  intro s tag hask anything
  refine ⟨fun hs => ?_, fun hr hset => ?_, fun hr hset => ⟨fun hno => ?_, fun hany => ⟨s.sealedSet, s.sealStaged_set?, ?_⟩⟩⟩
  · have hm : hostPublish s [] = .error .notRunning := by simp only [hostPublish, readNothing_iff.2, hs, if_true]
    rw [exec_publish, State.takeHost_refused hask rfl hm]
  · have hm : hostPublish s [] = .error .busy := by
      simp only [hostPublish, readNothing_iff.2, hr, reduceCtorEq, if_false, Option.isSome_iff_ne_none.2 hset, if_true]
    rw [exec_publish, State.takeHost_refused hask rfl hm]
  · have hm : hostPublish s [] = .ok ⟨.done, s, [0]⟩ := by
      have hany : s.anyStaged = false := Bool.eq_false_iff.2 fun h => hno (State.anyStaged_iff.1 h)
      simp [hostPublish, readNothing_iff.2, hr, hset, hany]
    rw [exec_publish, State.takeHost_done hask rfl hm]
  · have hm : hostPublish s [] = .ok ⟨.done, s.sealStaged, [BitVec.ofNat 8 s.stagedDeltas.length]⟩ := by
      simp [hostPublish, readNothing_iff.2, hr, hset, State.anyStaged_iff.2 hany]
    rw [exec_publish, State.takeHost_done hask rfl hm]
    rfl

/-! ## REPACK (R38, R40, R64) -/

section
variable {s : State} {plan : List (PlanItem × Nat)}

theorem repackEntry_silent (plan : List (PlanItem × Nat)) (i : LeaseIndex) (e : Entry) :
    (repackEntry plan i e).raised = [] ∧ (repackEntry plan i e).staged = false := by
  unfold repackEntry
  split <;> exact ⟨rfl, rfl⟩

theorem State.sealRepack_frame (s : State) (plan : List (PlanItem × Nat)) :
    s.sealRepack plan = ({ s with leases := (s.sealRepack plan).leases } : State).beginSet (s.repackDeltas plan) := by
  have h := State.onEveryEntry_silent (s := s) (fun i e => (repackEntry_silent plan i e).1) fun i e => (repackEntry_silent plan i e).2
  rw [State.sealRepack, State.beginSet_leases, ← h]

theorem movedCount_eq_zero_iff : movedCount plan = 0 ↔ ∀ i, movedTo plan i = none := by
  simp [movedCount, allLeases, List.countP_eq_zero]

/-- The deltas of a repack are as many as the leases that its plan moves (R40). -/
theorem State.repackDeltas_length (hp : s.repackPlan = some plan) : (s.repackDeltas plan).length = movedCount plan := by
  unfold State.repackDeltas movedCount
  rw [List.length_filterMap_eq_countP]
  refine List.countP_congr fun i _ => ?_
  cases hm : movedTo plan i with
  | none => cases s.lease? i <;> simp
  | some o =>
    obtain ⟨l, hl, -⟩ := State.movedTo_lease hp hm
    simp [hl]

theorem State.sealRepack_moved {i : LeaseIndex} {o : Nat} {l : Lease} (hm : movedTo plan i = some o) (hl : s.lease? i = some l) :
    (s.sealRepack plan).leases[i] = ⟨s.leases[i].generation, some { l with sealed := some (.config { l.active with placement := some o }) }⟩ := by
  rw [State.sealRepack_entry, hl, hm]
  rfl

theorem State.sealRepack_kept {i : LeaseIndex} (h : movedTo plan i = none ∨ s.lease? i = none) :
    (s.sealRepack plan).leases[i] = s.leases[i] := by
  rw [State.sealRepack_entry]
  have hkept : ((s.lease? i).map fun l => l.repacked (movedTo plan i)) = s.leases[i].lease := by
    rcases h with h | h
    · rw [h]
      exact congrFun Option.map_id (s.lease? i)
    · rw [h]
      exact h.symm
  rw [hkept]

end

theorem exec_repack (s : State) : exec .repack s = .next (s.takeHost (· == 11) hostRepack) := rfl

/-- Settles O26: the outcomes of the request in the order of R38, the last one the set of the moved leases. -/
theorem repackSealsThePlan : Obligations.RepackSealsThePlan := by
  unfold Obligations.RepackSealsThePlan
  intro s tag hask free
  have hfree : free ↔ ¬(s.publisher.stage ≠ .idle ∨ s.repackBlocked = true) := by
    rw [not_or, not_not, Bool.not_eq_true, State.repackBlocked_eq_false_iff]
  refine ⟨fun hs => ?_, fun hr hf => ?_, fun hr hf => ⟨fun hp => ?_, fun plan hp => ⟨fun hno => ?_, fun hmv => ?_⟩⟩⟩
  · have hm : hostRepack s [] = .error .notRunning := by simp only [hostRepack, readNothing_iff.2, hs, if_true]
    rw [exec_repack, State.takeHost_refused hask rfl hm]
  · have hm : hostRepack s [] = .error .busy := by
      simp only [hostRepack, readNothing_iff.2, hr, reduceCtorEq, if_false, if_pos (not_not.1 (mt hfree.2 hf))]
    rw [exec_repack, State.takeHost_refused hask rfl hm]
  · have hm : hostRepack s [] = .error .noRoom := by
      simp only [hostRepack, readNothing_iff.2, hr, reduceCtorEq, if_false, if_neg (hfree.1 hf), hp]
    rw [exec_repack, State.takeHost_refused hask rfl hm]
  · have hm : hostRepack s [] = .ok ⟨.done, s, [0]⟩ := by
      simp only [hostRepack, readNothing_iff.2, hr, reduceCtorEq, if_false, if_neg (hfree.1 hf), hp, movedCount_eq_zero_iff.2 hno, if_true]
    rw [exec_repack, State.takeHost_done hask rfl hm]
  · have hmoved : ¬movedCount plan = 0 := fun h0 => hmv.elim fun i hi => hi (movedCount_eq_zero_iff.1 h0 i)
    have hm : hostRepack s [] = .ok ⟨.staged, s.sealRepack plan, [BitVec.ofNat 8 (movedCount plan)]⟩ := by
      simp only [hostRepack, readNothing_iff.2, hr, reduceCtorEq, if_false, if_neg (hfree.1 hf), hp, hmoved]
    have hframe := s.sealRepack_frame plan
    refine ⟨s.sealRepack plan, ({ s with leases := (s.sealRepack plan).leases } : State).newSet (s.repackDeltas plan), ?_, hframe, ?_, rfl,
      fun i o l hi hl => State.sealRepack_moved hi hl, fun i h => State.sealRepack_kept h, s.repackDeltas_ascending plan,
      fun h kind => State.mem_repackDeltas⟩
    · rw [exec_repack, State.takeHost_granted hask rfl (.inr rfl) hm, ← State.repackDeltas_length hp]
      rfl
    · rw [hframe]
      exact State.beginSet_set? _ _

end Sys2Proof.Machine
end

section
/-! PROOFS. What is due in a frame: the frame start (R134, R138), the expiry event (R102), the end of a batch window (R77), and
the periods of the local frame (R154). -/

namespace Sys2Proof.Machine

section
variable {s : State}

/-! ## Nothing is due -/

theorem State.takeApplication_idle (h : s.applicationDue = false) : s.takeApplication = s := by
  simp [State.takeApplication, h]

theorem State.takeWindowEnd_idle (h : s.windowDue = false) : s.takeWindowEnd = s := by
  simp [State.takeWindowEnd, h]

theorem State.takeChoice_chosen (h : s.chain.frame.control ≠ none) : s.takeChoice = s := by
  have hc : s.chain.frame.control.isNone = false := by simpa [Option.isSome_iff_ne_none] using h
  simp [State.takeChoice, hc]

theorem State.onEveryEntry_unchanged {f : LeaseIndex → Entry → EntryEvent} (h : ∀ i, f i s.leases[i] = .unchanged s.leases[i]) :
    s.onEveryEntry f = s := by
  have h' : ∀ i : LeaseIndex, f i s.leases[i.val] = .unchanged s.leases[i.val] := h
  have hnone : (allLeases.any fun i => (f i s.leases[i]).staged) = false := by simp [h', EntryEvent.unchanged]
  have hleases : (Vector.ofFn fun i : LeaseIndex => (f i s.leases[i]).entry) = s.leases := by
    ext i hi
    simp [h' ⟨i, hi⟩, EntryEvent.unchanged]
  have hitems : (Vector.ofFn fun i : LeaseIndex => s.itemAfter i (f i s.leases[i])) = s.attention.leases := by
    ext i hi
    simp [h' ⟨i, hi⟩, EntryEvent.unchanged, State.itemAfter, raiseItems]
  unfold State.onEveryEntry
  simp only [hnone, Bool.false_eq_true, if_false, hleases, hitems]

/-- The expiry event does not act on an entry whose lease does not expire in the frame (R102). -/
theorem expireEntry_unchanged {n : FrameNumber} {e : Entry} (h : ∀ l, e.lease = some l → l.expiry = some n → l.mark ≠ none) :
    expireEntry n e = .unchanged e := by
  unfold expireEntry
  split
  · next l hl => exact if_neg fun hc => h l hl hc.1 hc.2
  · rfl

theorem State.takeExpiries_idle (h : ∀ i l, s.lease? i = some l → l.expiry = some s.chain.counter → l.mark ≠ none) : s.takeExpiries = s := by
  unfold State.takeExpiries
  split
  · exact State.onEveryEntry_unchanged fun i => expireEntry_unchanged (h i)
  · rfl

/-- Nothing of the frame's start is left to take (R138, R141). -/
theorem State.Settled.finish (h : s.Settled) : s.finishFrameStart = s := by
  rw [State.finishFrameStart, State.takeApplication_idle h.application, State.takeExpiries_idle h.expiry, State.takeWindowEnd_idle h.window,
    State.takeChoice_chosen h.control]

theorem State.driveDown_driven (h : s.chain.frame.downRegion ≠ none) : s.driveDown = s := by
  have hd : s.chain.frame.downRegion.isNone = false := by simpa [Option.isSome_iff_ne_none] using h
  simp [State.driveDown, hd]

/-- The frame has come to its response part: there is nothing before it (R136). -/
theorem State.AtResponse.reach (h : s.AtResponse) : s.reachResponse = s := by
  rw [State.reachResponse, h.settled.finish, State.driveDown_driven h.driven]

theorem State.takeResponse_idle {w : ChainWord} (h : s.responseDue = false) : s.takeResponse w = s := by
  simp [State.takeResponse, h]

/-- A response word is due exactly while a message that asks for one is unanswered (R146). -/
theorem State.responseDue_iff : s.responseDue = true ↔ s.inFrame = true ∧ ((∃ t, s.unanswered = some (.openCall t))
    ∨ ∃ k p, s.unanswered = some (.addressed k p)) := by
  unfold State.responseDue State.unanswered
  rw [Bool.and_eq_true, Bool.and_eq_true, Bool.not_eq_true', and_assoc]
  refine and_congr Iff.rfl ?_
  cases s.chain.frame.responded
  · cases hm : s.chain.frame.control.map Control.message with
    | none => simp
    | some m => cases m <;> simp
  · simp

/-- A frame that asks for no response has none due (R146, R148). -/
theorem State.responseDue_answered (h : s.unanswered = none ∨ s.unanswered = some .idle ∨ s.unanswered = some .switch) :
    s.responseDue = false := by
  refine Bool.eq_false_iff.2 fun hdue => ?_
  rcases (State.responseDue_iff.1 hdue).2 with ⟨t, ht⟩ | ⟨k, p, ht⟩ <;> rw [ht] at h <;> simp at h

theorem State.AtUpRegion.reach (h : s.AtUpRegion) : s.reachUpRegion = s := by
  rw [State.reachUpRegion, h.response.reach, State.takeResponse_idle (State.responseDue_answered h.taken)]

/-! ## Outside of a frame (R133) -/

section
variable (h : s.inFrame = false)
include h

theorem State.finishFrameStart_outside : s.finishFrameStart = s := by
  have happ : s.applicationDue = false := by simp [State.applicationDue, h]
  have hwin : s.windowDue = false := by simp [State.windowDue, h]
  rw [State.finishFrameStart, State.takeApplication_idle happ]
  have hexp : s.takeExpiries = s := by simp [State.takeExpiries, h]
  have hchoice : s.takeChoice = s := by simp [State.takeChoice, h]
  rw [hexp, State.takeWindowEnd_idle hwin, hchoice]

theorem State.reachResponse_outside : s.reachResponse = s := by
  rw [State.reachResponse, State.finishFrameStart_outside h]
  simp [State.driveDown, h]

theorem State.responseDue_outside : s.responseDue = false := by simp [State.responseDue, h]

theorem State.reachUpRegion_outside : s.reachUpRegion = s := by
  rw [State.reachUpRegion, State.reachResponse_outside h, State.takeResponse_idle (State.responseDue_outside h)]

end

end

/-! ## FRAME_START (R134, R138, R155, R156) -/

theorem LocalPort.exchange_eq (p : LocalPort) : p.exchange = {
    periods := 0
    capture := Vector.replicate 32 0
    input := Vector.ofFn fun c : Channel => if 32 * (c.val + 1) ≤ p.periods then ⟨p.capture[c], true⟩ else ⟨0, false⟩
    sending := p.gathering
    gathering := Vector.replicate 32 0
    lfs := true
    lsdo := p.lsdo } := by
  simp only [LocalPort.exchange, LocalPort.captured, channelArrived, decide_eq_true_eq]

theorem exec_frameStart (s : State) : exec .frameStart s = .next (if s.chain.state = .running then s.reachUpRegion.openFrame else s) := rfl

/-- The start of a frame forgets what the one before it has driven. -/
theorem State.openFrame_driveDown (s : State) : s.driveDown.openFrame = s.openFrame := by
  unfold State.driveDown
  split <;> rfl

theorem State.driveDown_unanswered (s : State) : s.driveDown.unanswered = s.unanswered := by
  unfold State.driveDown
  split <;> rfl

/-- Settles O34: outside of a frame nothing is taken first, and in a settled one only the DOWN region, which the next frame forgets. -/
theorem frameStartOpensTheNextFrame : Obligations.FrameStartOpensTheNextFrame := by
  unfold Obligations.FrameStartOpensTheNextFrame
  intro s
  rw [← LocalPort.exchange_eq]
  refine ⟨fun hs => ?_, fun hr hs => ?_, fun hs hu => ?_⟩
  · rw [exec_frameStart, hs, if_neg (by decide)]
  · have hout : s.inFrame = false := by simp [State.inFrame, hs]
    rw [exec_frameStart, if_pos hr, State.reachUpRegion_outside hout]
    simp only [State.openFrame, hs, Bool.false_eq_true, if_false]
  · have hdue : s.driveDown.responseDue = false := State.responseDue_answered (by rwa [State.driveDown_unanswered])
    obtain ⟨hr, hst⟩ : s.chain.state = .running ∧ s.chain.frame.started = true := by simpa [State.inFrame] using hs.frame
    rw [exec_frameStart, if_pos hr, State.reachUpRegion, State.reachResponse, hs.finish, State.takeResponse_idle hdue, State.openFrame_driveDown]
    simp only [State.openFrame, hst, if_true]

/-! ## EXPIRY and BATCH_WINDOW_END (R16, R77, R102) -/

theorem exec_expiry (i : LeaseIndex) (s : State) : exec (.expiry i) s = .next (s.takeExpiry i) := rfl
theorem exec_batchWindowEnd (s : State) : exec .batchWindowEnd s = .next s.takeWindowEnd := rfl

section
variable {s : State} {i : LeaseIndex} {l : Lease}

theorem State.takeExpiry_unchanged (h : ∀ l, s.lease? i = some l → l.expiry = some s.chain.counter → l.mark ≠ none) : s.takeExpiry i = s := by
  unfold State.takeExpiry
  split
  · rw [expireEntry_unchanged h, State.onEntry_unchanged]
  · rfl

theorem State.takeExpiry_expires (hf : s.inFrame = true) (hl : s.lease? i = some l) (he : l.expiry = some s.chain.counter) (hm : l.mark = none) :
    s.takeExpiry i = (s.raiseLease i Reason.expired).onEntry i (retireLive s.leases[i] l .expired) := by
  have hl' : s.leases[i].lease = some l := hl
  rw [State.takeExpiry, if_pos hf, expireEntry]
  simp only [hl', he, hm, and_self, if_true]
  rw [State.onEntry_raising]

end

theorem State.windowDue_at {s : State} {f : FrameNumber} (hf : s.inFrame = true) (hs : s.publisher.stage = .batching f) :
    s.windowDue = (f == s.chain.counter) := by
  simp [State.windowDue, hf, hs]

/-- Settles O36: what the expiry event and the end of a window do once they are due, and that they do nothing before. -/
theorem expiryAndWindowEnd : Obligations.ExpiryAndWindowEnd := by
  unfold Obligations.ExpiryAndWindowEnd
  refine ⟨fun s i l hf hl => ⟨fun he hm => ⟨fun hn => ?_, fun hn => ?_⟩, fun hno => ?_⟩,
    fun s f hf hs => ⟨fun hc hany => ?_, fun hc hno => ?_, fun hc => ?_⟩⟩
  · rw [exec_expiry, State.takeExpiry_expires hf hl he hm, retireLive, if_pos (Lease.retiresAtOnce_iff.2 hn)]
    exact congrArg _ ((s.raiseLease i Reason.expired).onEntry_free i false)
  · rw [exec_expiry, State.takeExpiry_expires hf hl he hm, retireLive, if_neg fun hc => hn (Lease.retiresAtOnce_iff.1 hc)]
    exact congrArg _ ((s.raiseLease i Reason.expired).onEntry_stage i _)
  · rw [exec_expiry, State.takeExpiry_unchanged fun m hm' => ?_]
    cases hl.symm.trans hm'
    exact fun he => hno.resolve_left (not_not.2 he)
  · rw [exec_batchWindowEnd, State.takeWindowEnd, State.windowDue_at hf hs, hc, if_pos (beq_self_eq_true _), State.endWindow,
      if_pos (State.anyStaged_iff.2 hany)]
  · rw [exec_batchWindowEnd, State.takeWindowEnd, State.windowDue_at hf hs, hc, if_pos (beq_self_eq_true _), State.endWindow,
      if_neg fun h => hno (State.anyStaged_iff.1 h)]
    rfl
  · rw [exec_batchWindowEnd, State.takeWindowEnd_idle ((State.windowDue_at hf hs).trans (beq_eq_false_iff_ne.2 hc))]

/-! ## LBCK_PERIOD (R154, R155) -/

theorem exec_lbckPeriod (d : Bool) (s : State) :
    exec (.lbckPeriod d) s = .next (if s.inFrame then { s with localPort := s.localPort.period d } else s) := rfl

theorem periodChannel_of {n j : Nat} {c : Channel} (hj : j < 32) (hn : n = 32 * c.val + j) : periodChannel n = c ∧ n % 32 = j := by
  refine ⟨Fin.ext ?_, by omega⟩
  simp only [periodChannel]
  omega

/-- A bit shifted in from below (R155). -/
theorem shiftIn_eq (x : BitVec 32) (d : Bool) : (x <<< 1) ||| (flagBit d).zeroExtend 32 = x.extractLsb' 0 31 ++ BitVec.ofBool d := by
  refine BitVec.eq_of_getLsbD_eq fun i hi => ?_
  simp only [BitVec.getLsbD_or, BitVec.getLsbD_shiftLeft, BitVec.getLsbD_append, flagBit, BitVec.getLsbD_setWidth,
    BitVec.getLsbD_extractLsb']
  rcases Nat.eq_zero_or_pos i with rfl | hpos
  · simp
  · have h1 : ¬i < 1 := by omega
    have h2 : i - 1 < 31 := by omega
    have h3 : (BitVec.ofBool d).getLsbD i = false := BitVec.getLsbD_of_ge _ _ (by omega)
    simp [h1, h2, h3, hi]

/-- Settles O48: the channel and the bit of a period are its quotient and its rest by 32. -/
theorem lbckPeriodsMoveTheBits : Obligations.LbckPeriodsMoveTheBits := by
  unfold Obligations.LbckPeriodsMoveTheBits
  intro s d hf
  refine ⟨fun c j hj hn => ?_, fun hn => ?_⟩
  · obtain ⟨hc, hbit⟩ := periodChannel_of hj hn
    have hlt : s.localPort.periods < Config.localPeriods := by
      have := c.isLt
      simp only [Config.localPeriods]
      omega
    rw [exec_lbckPeriod, if_pos hf, LocalPort.period, if_pos hlt]
    simp only [hc, hbit, shiftIn_eq, beq_eq_decide]
  · have hge : ¬s.localPort.periods < Config.localPeriods := by simpa [Config.localPeriods] using hn
    rw [exec_lbckPeriod, if_pos hf, LocalPort.period, if_neg hge]

end Sys2Proof.Machine
end

section
/-! PROOFS. The choice of the control message (R140 to R145): the application that is due, the precedence, the rotation of the
notices, and the lines with nothing waiting. -/

namespace Sys2Proof.Machine

/-! ## The first element of an ordered list -/

/-- The first element with a property is the one that no other with the property comes before. -/
theorem find_eq_some_of_pairwise {α : Type} {R : α → α → Prop} {P : α → Bool} {x : α} : ∀ {as : List α}, as.Pairwise R → x ∈ as →
    P x = true → (∀ y ∈ as, P y = true → ¬R y x) → as.find? P = some x
  | a :: as, hp, hx, hP, hmin => by
    rw [List.pairwise_cons] at hp
    rcases List.mem_cons.1 hx with rfl | hx
    · exact List.find?_cons_of_pos hP
    · have ha : ¬P a = true := fun hc => hmin a List.mem_cons_self hc (hp.1 x hx)
      rw [List.find?_cons_of_neg ha]
      exact find_eq_some_of_pairwise hp.2 hx hP fun y hy => hmin y (List.mem_cons_of_mem _ hy)

/-! ## The notice that is due (R86) -/

theorem rotation_sorted : ∀ r : Position, r ≠ 0 → (rotationFrom r).Pairwise fun a b => stepsUp r a < stepsUp r b := by decide

theorem mem_rotationFrom {r p : Position} : p ∈ rotationFrom r ↔ p ≠ 0 := by revert r p; decide

section
variable {set : ChangeSet} {n : Notice}

theorem ChangeSet.nextNotice_of_gives {r : Position} (hr : set.rotation = some r) (hr0 : r ≠ 0) (h : set.Gives r n) : set.nextNotice = some n := by
  obtain ⟨hn, hopen, hpos, hmin⟩ := h
  have hfind : (rotationFrom r).find? (openAt set.notices) = some n.position := by
    refine find_eq_some_of_pairwise (rotation_sorted r hr0) (mem_rotationFrom.2 hpos) (openAt_iff.2 ⟨n, hn, rfl, hopen⟩) fun q hq0 hq hlt => ?_
    obtain ⟨m, hm, rfl, hmo⟩ := openAt_iff.1 hq
    rcases hmin m hm hmo (mem_rotationFrom.1 hq0) with h | h
    · omega
    · rw [h.1] at hlt
      omega
  have hdelta : ((set.notices.filter fun m => m.position == n.position && !m.acked).map Notice.delta).min? = some n.delta := by
    refine List.min?_eq_some_iff.2 ⟨List.mem_map.2 ⟨n, List.mem_filter.2 ⟨hn, by simp [hopen]⟩, rfl⟩, fun k hk => ?_⟩
    obtain ⟨m, hm, rfl⟩ := List.mem_map.1 hk
    obtain ⟨hm, hat⟩ := List.mem_filter.1 hm
    obtain ⟨hp, hmo⟩ : m.position = n.position ∧ m.acked = false := by simpa using hat
    rcases hmin m hm hmo (hp ▸ hpos) with h | h
    · rw [hp] at h
      omega
    · exact h.2
  unfold ChangeSet.nextNotice
  rw [hr, Option.getD_some, hfind]
  simp only [hdelta, Option.map_some, ← hopen]

theorem ChangeSet.nextNotice_none (h : ∀ m ∈ set.notices, m.acked = false → m.position = 0) : set.nextNotice = none := by
  have hnone : (rotationFrom (set.rotation.getD 1)).find? (openAt set.notices) = none := by
    refine List.find?_eq_none.2 fun q hq hc => ?_
    obtain ⟨m, hm, rfl, hmo⟩ := openAt_iff.1 hc
    exact mem_rotationFrom.1 hq (h m hm hmo)
  unfold ChangeSet.nextNotice
  rw [hnone]

end

section
variable {s : State}

theorem State.dueNotice_none (h : ¬s.NoticeWaits) : s.dueNotice = none := by
  unfold State.dueNotice
  split
  · next set hst =>
    rw [ChangeSet.nextNotice_none fun m hm hmo => not_not.1 fun h0 => h ⟨set, hst, m, hm, hmo, h0⟩]
    rfl
  · rfl

theorem State.dueNotice_of_gives {set : ChangeSet} {r : Position} {n : Notice} (hst : s.publisher.stage = .notifying set)
    (hr : set.rotation = some r) (hr0 : r ≠ 0) (h : set.Gives r n) : s.dueNotice = some (set, n) := by
  simp only [State.dueNotice, hst, ChangeSet.nextNotice_of_gives hr hr0 h, Option.map_some]

/-! ## The precedence (R140, R142) -/

/-- The delivery list has the turn: it is not the notices', or no notice waits (R140). -/
def State.Delivers (s : State) : Prop := s.chain.alternation ≠ some .answer ∨ ¬s.NoticeWaits

theorem State.sendByPrecedence_delivery {d : Delivery} {rest : List Delivery} (hd : s.chain.delivery = d :: rest) (h : s.Delivers) :
    s.sendByPrecedence = s.sendDelivery d rest := by
  unfold State.sendByPrecedence
  rw [hd]
  cases hn : s.dueNotice with
  | none => rfl
  | some q =>
    refine if_neg fun hc => h.elim (fun ha => ha hc) fun hw => ?_
    rw [State.dueNotice_none hw] at hn
    cases hn

theorem State.sendByPrecedence_notice {set : ChangeSet} {n : Notice} (hn : s.dueNotice = some (set, n))
    (h : s.chain.delivery = [] ∨ s.chain.alternation = some .answer) : s.sendByPrecedence = s.sendNotice set n := by
  unfold State.sendByPrecedence
  rw [hn]
  cases hd : s.chain.delivery with
  | nil => rfl
  | cons d rest => exact if_pos (h.resolve_left (by rw [hd]; simp))

theorem State.sendByPrecedence_other (hd : s.chain.delivery = []) (hn : ¬s.NoticeWaits) : s.sendByPrecedence = s.sendOther := by
  unfold State.sendByPrecedence
  rw [hd, State.dueNotice_none hn]

theorem State.chooseMessage_switch {set : ChangeSet} {f : FrameNumber} (hst : s.publisher.stage = .switching set f)
    (h : laterThan f s.chain.counter = true) : s.chooseMessage = s.send .switch (switchWord s.publisher.epoch set.number f) := by
  simp only [State.chooseMessage, hst, h, if_true]

theorem State.chooseMessage_precedence (h : ∀ set f, s.publisher.stage = .switching set f → laterThan f s.chain.counter = false) :
    s.chooseMessage = s.sendByPrecedence := by
  unfold State.chooseMessage
  split
  · next set f hst => rw [h set f hst, if_neg (by decide)]
  · rfl

theorem exec_controlMessageChoice (s : State) : exec .controlMessageChoice s = .next s.takeApplication.takeChoice := rfl
theorem exec_setApplication (s : State) : exec .setApplication s = .next s.takeApplication := rfl

theorem exec_choice (hf : s.inFrame = true) (hc : s.chain.frame.control = none) (ha : s.applicationDue = false) :
    exec .controlMessageChoice s = .next s.chooseMessage := by
  rw [exec_controlMessageChoice, State.takeApplication_idle ha, State.takeChoice, hf, hc]
  rfl

/-! ## The application that is due (R92, R141) -/

theorem State.takeApplication_due {set : ChangeSet} (hf : s.inFrame = true) (hst : s.publisher.stage = .switching set s.chain.counter) :
    s.takeApplication = s.applySet set := by
  have hdue : s.applicationDue = true := by simp [State.applicationDue, hf, hst]
  simp only [State.takeApplication, hdue, if_true, hst, PublisherStage.set?]

theorem State.applySet_chain (s : State) (set : ChangeSet) : (s.applySet set).chain = s.chain := by simp [State.applySet]

/-- After the application the publisher is SWITCHING no more (R93). -/
theorem State.applicationDue_of_no_set (h : s.publisher.stage.set? = none) : s.applicationDue = false := by
  unfold State.applicationDue
  cases hst : s.publisher.stage with
  | switching set f => rw [hst] at h; cases h
  | _ => simp

theorem State.applySet_applied (s : State) (set : ChangeSet) : (s.applySet set).applicationDue = false := by
  refine State.applicationDue_of_no_set ?_
  simpa [State.applySet] using (s.onEveryEntry (applyEntry set)).nextStage_no_set

end

/-- Settles O38: the application first, then the four lines of the precedence. -/
theorem choiceByPrecedence : Obligations.ChoiceByPrecedence := by
  unfold Obligations.ChoiceByPrecedence
  refine ⟨fun s set hf hst => ⟨s.applySet set, ?_, ?_, ?_, s.applySet_applied set, s.applySet_chain set⟩, fun s hf hc ha => ⟨?_, ?_⟩⟩
  · rw [exec_setApplication, State.takeApplication_due hf hst]
  · rw [exec_controlMessageChoice, exec_controlMessageChoice, State.takeApplication_due hf hst,
      State.takeApplication_idle (s.applySet_applied set)]
  · simpa only [State.inFrame, s.applySet_chain set] using hf
  · intro set f hst hlater
    rw [exec_choice hf hc ha, State.chooseMessage_switch hst hlater]
  · intro hno
    rw [exec_choice hf hc ha, State.chooseMessage_precedence hno]
    refine ⟨fun p rest a hd hdel hans => ?_, fun p rest hd hdel => ?_, fun set r n hst hr hr0 hg hturn => ?_⟩
    · rw [State.sendByPrecedence_delivery hd hdel]
      simp only [State.sendDelivery, State.answerBits, hans]
    · rw [State.sendByPrecedence_delivery hd hdel]
      rfl
    · rw [State.sendByPrecedence_notice (State.dueNotice_of_gives hst hr hr0 hg) hturn]
      rfl

/-! ## With nothing waiting (R116, R145) -/

/-- An open call may be made: a mode that admits, no position being admitted or LOST, and the interval passed (R116). -/
def State.OpenCallRipe (s : State) : Prop :=
  s.members.admission ≠ .closed ∧ (∀ p, (s.member p).state ≠ .admitting ∧ (s.member p).state ≠ .lost)
    ∧ ∀ m, s.members.lastOpenCall = some m → 256 ≤ (s.chain.counter - m).toNat

section
variable {s : State}

theorem State.openCallRipe_iff : s.openCallRipe = true ↔ ∀ m, s.members.lastOpenCall = some m → 256 ≤ (s.chain.counter - m).toNat := by
  unfold State.openCallRipe
  cases s.members.lastOpenCall with
  | none => simp
  | some m =>
    simp only [Option.some.injEq, forall_eq']
    exact decide_eq_true_iff

theorem State.settledPositions_iff : (memberPositions.all fun p => (s.member p).state != .admitting && (s.member p).state != .lost) = true
    ↔ ∀ p, (s.member p).state ≠ .admitting ∧ (s.member p).state ≠ .lost := by
  simp only [List.all_eq_true, Bool.and_eq_true, bne_iff_ne]
  refine ⟨fun h p => ?_, fun h p _ => h p⟩
  rcases eq_or_ne p 0 with rfl | h0
  · rw [State.member_zero]
    exact ⟨by decide, by decide⟩
  · exact h p (mem_memberPositions.2 h0)

theorem State.openCallDue_ripe (hf : s.inFrame = true) (h : s.OpenCallRipe) : s.openCallDue = s.joinTarget := by
  obtain ⟨hmode, hpos, hlast⟩ := h
  exact if_pos ⟨State.inFrame_running hf, hmode, State.settledPositions_iff.2 hpos, State.openCallRipe_iff.2 hlast⟩

theorem State.openCallDue_unripe (h : ¬s.OpenCallRipe) : s.openCallDue = none :=
  if_neg fun hc => h ⟨hc.2.1, State.settledPositions_iff.1 hc.2.2.1, State.openCallRipe_iff.1 hc.2.2.2⟩

theorem State.not_joined_zero (s : State) : s.joined 0 = false := by simp [State.joined, Member.vacant]

theorem State.joined_pos {p : Position} (h : s.joined p = true) : p ≠ 0 := fun hc => by
  rw [hc, State.not_joined_zero] at h
  cases h

/-- The highest JOINED position. -/
theorem State.highestJoined {p : Position} (hp : s.joined p = true) (habove : ∀ q, p < q → s.joined q = false) :
    memberPositions.reverse.find? s.joined = some p := by
  have hsorted : memberPositions.reverse.Pairwise fun a b => b < a := by decide
  refine find_eq_some_of_pairwise hsorted (List.mem_reverse.2 (mem_memberPositions.2 (State.joined_pos hp))) hp fun q _ hq hlt => ?_
  rw [habove q hlt] at hq
  cases hq

theorem position_lt_iff_le {t q : Position} (h : t ≠ 0) : t - 1 < q ↔ t ≤ q := by revert t q; decide

theorem position_pred_ne {t : Position} (h : t ≠ 0) : t - 1 ≠ 15 := by revert t; decide

/-- The target of an open call (R114, R116). -/
theorem State.joinTarget_above {t : Position} (h0 : t ≠ 0) (hbelow : t = 1 ∨ s.joined (t - 1) = true) (habove : ∀ q, t ≤ q → s.joined q = false) :
    s.joinTarget = some t := by
  unfold State.joinTarget
  by_cases hj : s.joined (t - 1) = true
  · rw [State.highestJoined hj fun q hq => habove q ((position_lt_iff_le h0).1 hq)]
    simp only [if_neg (position_pred_ne h0), position_pred_succ h0]
  · rw [hbelow.resolve_right hj] at habove ⊢
    have hnone : memberPositions.reverse.find? s.joined = none := by
      refine List.find?_eq_none.2 fun q hq => Bool.eq_false_iff.1 (habove q ?_)
      have hq0 := mem_memberPositions.1 (List.mem_reverse.1 hq)
      revert hq0
      revert q
      decide
    rw [hnone]

theorem State.joinTarget_full (h : s.joined 15 = true) : s.joinTarget = none := by
  have htop : ∀ q : Position, ¬15 < q := by decide
  rw [State.joinTarget, State.highestJoined h fun q hq => absurd hq (htop q)]
  rfl

theorem State.openCallDue_none (hf : s.inFrame = true) (h : ¬s.OpenCallRipe ∨ s.joined 15 = true) : s.openCallDue = none := by
  by_cases hr : s.OpenCallRipe
  · rw [State.openCallDue_ripe hf hr, State.joinTarget_full (h.resolve_left (not_not.2 hr))]
  · exact State.openCallDue_unripe hr

/-- The lowest JOINED position. -/
theorem State.lowestJoined {p : Position} (hp : s.joined p = true) (hbelow : ∀ q, q < p → s.joined q = false) :
    memberPositions.find? s.joined = some p := by
  refine (find_memberPositions_iff s.not_joined_zero).2 ⟨hp, fun q hq => not_lt.1 fun hlt => ?_⟩
  rw [hbelow q hlt] at hq
  cases hq

/-- The next JOINED position above the mark (R145). -/
theorem State.pollTarget_next {k p : Position} (hk : s.chain.pollMark = some k) (hp : s.joined p = true) (hlt : k < p)
    (hbetween : ∀ q, k < q → q < p → s.joined q = false) : s.pollTarget = some p := by
  have hfind : memberPositions.find? (fun p => decide (k < p) && s.joined p) = some p := by
    refine (find_memberPositions_iff (by simp)).2 ⟨by simp [hlt, hp], fun q hq => not_lt.1 fun hqp => ?_⟩
    obtain ⟨hkq, hq⟩ : k < q ∧ s.joined q = true := by simpa using hq
    rw [hbetween q hkq hqp] at hq
    cases hq
  simp only [State.pollTarget, hk, hfind]

/-- The rotation of the POLLs wraps to the lowest JOINED position (R145). -/
theorem State.pollTarget_wraps (h : ∀ k q, s.chain.pollMark = some k → k < q → s.joined q = false) :
    s.pollTarget = memberPositions.find? s.joined := by
  unfold State.pollTarget
  cases hk : s.chain.pollMark with
  | none => rfl
  | some k =>
    have hnone : memberPositions.find? (fun p => decide (k < p) && s.joined p) = none := by
      refine List.find?_eq_none.2 fun q _ hc => ?_
      obtain ⟨hkq, hq⟩ : k < q ∧ s.joined q = true := by simpa using hc
      rw [h k q hk hkq] at hq
      cases hq
    simp only [hnone]

end

/-- Settles O39: the open call, the POLL, and IDLE, in the order of lines 5 to 7. -/
theorem choiceWithNothingWaiting : Obligations.ChoiceWithNothingWaiting := by
  unfold Obligations.ChoiceWithNothingWaiting
  intro s hf ha
  refine ⟨fun hc => ?_, fun hc hd hn hno => ?_⟩
  · rw [exec_controlMessageChoice, State.takeApplication_idle ha, State.takeChoice_chosen hc]
  · rw [exec_choice hf hc ha, State.chooseMessage_precedence hno, State.sendByPrecedence_other hd hn]
    refine ⟨fun t hr h0 hbelow habove => ?_, fun p hcall hp hrot => ?_, fun hr hnobody => ?_⟩
    · simp only [State.sendOther, State.openCallDue_ripe hf hr, State.joinTarget_above h0 hbelow habove]
    · have htarget : s.pollTarget = some p := by
        rcases hrot with ⟨k, hk, hlt, hbetween⟩ | ⟨habove, hbelow⟩
        · exact State.pollTarget_next hk hp hlt hbetween
        · rw [State.pollTarget_wraps habove, State.lowestJoined hp hbelow]
      simp only [State.sendOther, State.openCallDue_none hf hcall, htarget]
    · have hnone : memberPositions.find? s.joined = none := List.find?_eq_none.2 fun q _ => Bool.eq_false_iff.1 (hnobody q)
      simp only [State.sendOther, State.openCallDue_unripe hr, State.pollTarget_wraps fun _ q _ _ => hnobody q, hnone]

end Sys2Proof.Machine
end

section
/-! PROOFS. The response part of the frame (R146 to R148): what a word is taken for, the intake of requests, JOINs, misses
(R121 to R123), and the release of LOST positions (R129). -/

namespace Sys2Proof.Machine

section
variable {s : State} {p : Position}

/-! ## The word that is taken (R146) -/

theorem exec_responseWord (h : s.AtResponse) (w : ChainWord) : exec (.responseWord w) s = .next (s.takeResponse w) :=
  congrArg (fun t : State => (Host.Outcome.next (t.takeResponse w) : Host.Outcome State Fault Refusal)) h.reach

theorem State.unanswered_some {m : Message} : s.unanswered = some m ↔ s.chain.frame.responded = false
    ∧ s.chain.frame.control.map Control.message = some m := by
  unfold State.unanswered
  cases s.chain.frame.responded <;> simp

/-- What the word in answer to an addressed message delivers (R131). -/
def State.delivered (s : State) (p : Position) (w : ChainWord) : State :=
  if s.validResponse p w && wordRequest w then s.responseTaken.intake p (wordPayload w) else s.responseTaken

theorem State.takeResponse_addressed {k : Addressed} (hf : s.inFrame = true) (hu : s.unanswered = some (.addressed k p)) (w : ChainWord) :
    s.takeResponse w = (s.delivered p w).responseOutcome k p (s.validResponse p w) (wordAck w) := by
  have hdue : s.responseDue = true := State.responseDue_iff.2 ⟨hf, .inr ⟨k, p, hu⟩⟩
  simp only [State.takeResponse, hdue, if_true, State.takeWord, (State.unanswered_some.1 hu).2]
  rfl

theorem State.takeResponse_openCall (hf : s.inFrame = true) (hu : s.unanswered = some (.openCall p)) (w : ChainWord) :
    s.takeResponse w = if validJoin p w then s.responseTaken.takeJoin p (joinIdentity w) else s.responseTaken := by
  have hdue : s.responseDue = true := State.responseDue_iff.2 ⟨hf, .inl ⟨p, hu⟩⟩
  simp only [State.takeResponse, hdue, if_true, State.takeWord, (State.unanswered_some.1 hu).2]
  rfl

/-- The valid words are those of their layout with the active epoch and without JOIN (R147). -/
theorem State.validResponse_iff {w : ChainWord} : s.validResponse p w = true
    ↔ ∃ ack request payload, w = responseWordOf ack request false p s.publisher.epoch payload := by
  simp only [responseWordOf_iff, State.validResponse, Bool.and_eq_true, beq_iff_eq, Bool.not_eq_true']
  constructor
  · rintro ⟨⟨⟨hs, he⟩, hep⟩, hj⟩
    exact ⟨_, _, _, hs, rfl, rfl, hj, he, hep, rfl⟩
  · rintro ⟨_, _, _, hs, -, -, hj, he, hep, -⟩
    exact ⟨⟨⟨hs, he⟩, hep⟩, hj⟩

/-- The valid JOINs are the words of their layout, whatever epoch they carry (R148). -/
theorem validJoin_iff {t : Position} {w : ChainWord} : validJoin t w = true
    ↔ ∃ ack request epoch d, w = responseWordOf ack request true t epoch (identityPayload d) := by
  have hpay (x : BitVec 40) : ∃ d, x = identityPayload d := ⟨⟨_, _, _, _, _⟩, identityPayload_iff.2 ⟨rfl, rfl, rfl, rfl, rfl⟩⟩
  simp only [responseWordOf_iff, validJoin, Bool.and_eq_true, beq_iff_eq]
  constructor
  · rintro ⟨⟨hs, hj⟩, he⟩
    obtain ⟨d, hd⟩ := hpay (wordPayload w)
    exact ⟨_, _, _, d, hs, rfl, rfl, hj, he, rfl, hd⟩
  · rintro ⟨_, _, _, _, hs, -, -, hj, he, -, -⟩
    exact ⟨⟨hs, hj⟩, he⟩

/-- An invalid word is a miss, whatever the message (R122, R147). -/
theorem State.takeResponse_invalid {k : Addressed} (hf : s.inFrame = true) (hu : s.unanswered = some (.addressed k p)) {w : ChainWord}
    (hw : s.validResponse p w = false) : s.takeResponse w = s.responseTaken.countMiss p := by
  rw [State.takeResponse_addressed hf hu, State.delivered, hw]
  cases k <;> simp [State.responseOutcome]

theorem State.validResponse_zero : s.validResponse p 0 = false := by
  have h : wordSound 0 = false := by decide
  rw [State.validResponse, h]
  rfl

/-! ## The intake (R131, R132) -/

theorem State.queued_eq_false_iff : s.queued p = false ↔ ∀ e ∈ s.engine.queue, e.position ≠ p := by simp [State.queued]

theorem State.intake_stranger (h : s.joined p = false) (x : BitVec 40) : s.intake p x = s := by simp [State.intake, h]

theorem withoutDelivery_position (ds : List Delivery) (p : Position) :
    withoutDelivery ds (fun q => q == p) = ds.filter fun d => d != .answer p && d != .assign p := by
  refine List.filter_congr fun d _ => ?_
  cases d <;> simp [bne, beq_eq_decide]

theorem State.setMember_setMember (s : State) (p : Position) (m m' : Member) : (s.setMember p m).setMember p m' = s.setMember p m' := by
  unfold State.setMember
  split <;> simp

/-! ## Acknowledged notices (R87, R89) -/

theorem State.changeNotices_open {set : ChangeSet} {f : List Notice → List Notice} (hst : s.publisher.stage = .notifying set)
    (h : ∃ n ∈ f set.notices, n.acked = false) : s.changeNotices f = s.setStage (.notifying { set with notices := f set.notices }) := by
  have hopen : allSettled (f set.notices) = false := by
    obtain ⟨n, hn, ha⟩ := h
    exact Bool.eq_false_iff.2 fun hc => by rw [allSettled_iff.1 hc n hn] at ha; cases ha
  simp [State.changeNotices, hst, hopen]

theorem State.changeNotices_told {set : ChangeSet} {f : List Notice → List Notice} {lead : Nat} (hst : s.publisher.stage = .notifying set)
    (h : ∀ n ∈ f set.notices, n.acked = true) (hl : s.chain.lead = some lead) : s.changeNotices f
      = s.setStage (.switching { set with notices := f set.notices } (s.chain.counter + BitVec.ofNat 32 lead)) := by
  simp [State.changeNotices, hst, allSettled_iff.2 h, State.switchFrameNow, hl]

end

/-- Settles O41: a valid word by the kind of its message, any other as a miss. -/
theorem responsesAreJudged : Obligations.ResponsesAreJudged := by
  unfold Obligations.ResponsesAreJudged
  refine ⟨fun s k p hs hu => ⟨fun ack request payload => ?_, fun w hw => ?_⟩, fun s p payload => ⟨?_, ?_, ?_, ?_⟩,
    fun s set d p hst => ⟨fun h => ?_, fun h lead hl => ?_⟩⟩
  · intro taken heard answered
    let w := responseWordOf ack request false p s.publisher.epoch payload
    obtain ⟨-, hack, hreq, -, -, -, hpay⟩ := responseWordOf_iff.1 (rfl : w = _)
    have hvalid : s.validResponse p w = true := State.validResponse_iff.2 ⟨ack, request, payload, rfl⟩
    have htaken : s.delivered p w = taken := by simp only [State.delivered, hvalid, hreq, hpay, Bool.true_and, taken]
    have hnext {t : State} (ht : taken.responseOutcome k p true ack = t) : answered t := by
      have hstep := exec_responseWord hs w
      rwa [State.takeResponse_addressed hs.settled.frame hu, htaken, hvalid, hack, ht] at hstep
    have hadm (ha : (s.member p).state = .admitting) : taken = s.responseTaken := by
      have hstranger : s.responseTaken.joined p = false := by simp [State.joined, State.responseTaken, ha]
      simp only [taken, State.intake_stranger hstranger, ite_self]
    refine ⟨fun hk => hnext ?_, fun d hk ha => hnext ?_, fun d hk ha => hnext ?_, fun hk hadmitting ha => hnext ?_,
      fun hk hadmitting ha => hnext ?_⟩
    · rcases hk with rfl | rfl <;> rfl
    · rw [hk, ha]
      rfl
    · rw [hk, ha]
      rfl
    · rw [hk, ha, hadm hadmitting]
      rfl
    · rw [hk, ha, hadm hadmitting]
      simp only [State.responseOutcome, Bool.and_self, if_true, State.joinMember, State.dropDelivery, withoutDelivery_position]
      simp [State.responseTaken]
  · have hinvalid : s.validResponse p w = false := Bool.eq_false_iff.2 fun hc => by
      obtain ⟨ack, request, payload, h⟩ := State.validResponse_iff.1 hc
      exact hw ack request payload h
    rw [exec_responseWord hs, State.takeResponse_invalid hs.settled.frame hu hinvalid]
  · exact fun hj => State.intake_stranger hj payload
  · intro hj hq ha
    simp only [State.intake, hj, State.queued_eq_false_iff.2 hq, ha, if_true, Bool.false_eq_true, if_false]
  · intro a hj hq ha
    simp only [State.intake, hj, State.queued_eq_false_iff.2 hq, ha, if_true, Bool.false_eq_true, if_false]
  · intro hj hq
    have hqueued : s.queued p = true := Bool.of_not_eq_false fun hc =>
      hq.elim fun e he => State.queued_eq_false_iff.1 hc e he.1 he.2
    simp only [State.intake, hj, hqueued, if_true, overrunQueue]
  · exact State.changeNotices_open hst h
  · exact State.changeNotices_told hst h hl

/-! ## JOINs (R118, R119, R148) -/

theorem admits_iff {mode : AdmissionMode} {expected : Option Expected} {d : Identity} : admits mode expected d = true
    ↔ mode = .openMode ∨ (mode = .listed ∧ ∃ x, expected = some x ∧ x.vendor = d.vendor ∧ x.product = d.product) := by
  cases mode <;> simp [admits, any_iff]

/-- Settles O42: a valid JOIN is decided by the mode and the expected identity, any other word leaves the open call unanswered. -/
theorem joinsAreDecided : Obligations.JoinsAreDecided := by
  unfold Obligations.JoinsAreDecided
  refine fun s hs => ⟨fun t hu _ => ⟨fun ack request epoch d => ?_, fun w hw => ?_⟩, fun hno w => ?_⟩
  · have hjoin : validJoin t (responseWordOf ack request true t epoch (identityPayload d)) = true := validJoin_iff.2 ⟨_, _, _, _, rfl⟩
    simp only [exec_responseWord hs, State.takeResponse_openCall hs.settled.frame hu, hjoin, if_true, joinIdentity_responseWordOf, State.takeJoin]
    have hiff := @admits_iff s.members.admission (s.member t).expected d
    refine ⟨fun h => ?_, fun h => ?_⟩
    · have hadm : admits s.responseTaken.members.admission (s.responseTaken.member t).expected d = true := hiff.2 h
      rw [if_pos hadm]
      simp [State.responseTaken]
    · have hadm : ¬admits s.responseTaken.members.admission (s.responseTaken.member t).expected d = true := fun hc => h (hiff.1 hc)
      rw [if_neg hadm]
      rfl
  · have hno : validJoin t w = false := Bool.eq_false_iff.2 fun hc => by
      obtain ⟨ack, request, epoch, d, h⟩ := validJoin_iff.1 hc
      exact hw ack request epoch d h
    rw [exec_responseWord hs, State.takeResponse_openCall hs.settled.frame hu, hno, if_neg (by decide)]
  · rw [exec_responseWord hs, State.takeResponse_idle (State.responseDue_answered hno)]

/-! ## Misses (R121 to R123) -/

section
variable {s : State} {p : Position}

theorem State.awaits_iff : s.awaits p = true ↔ s.inFrame = true ∧ ∃ k, s.unanswered = some (.addressed k p) := by
  unfold State.awaits State.unanswered
  rw [Bool.and_eq_true, Bool.and_eq_true, Bool.not_eq_true', and_assoc]
  refine and_congr Iff.rfl ?_
  cases s.chain.frame.responded
  · cases hm : s.chain.frame.control.map Control.message with
    | none => simp
    | some m => cases m <;> simp
  · simp

theorem State.atLimit_iff {m n : Nat} (hm : s.members.missLimit = some m) : s.atLimit n = true ↔ m ≤ n := by simp [State.atLimit, hm]

theorem exec_memberLoss (h : s.AtResponse) (p : Position) :
    exec (.memberLoss p) s = .next (if s.missDue p .joined then s.responseTaken.countMiss p else s) :=
  congrArg (fun t : State => (Host.Outcome.next (if t.missDue p .joined then t.takeMiss p else t) : Host.Outcome State Fault Refusal)) h.reach

theorem exec_admissionFailure (h : s.AtResponse) (p : Position) :
    exec (.admissionFailure p) s = .next (if s.missDue p .admitting then s.responseTaken.countMiss p else s) :=
  congrArg (fun t : State => (Host.Outcome.next (if t.missDue p .admitting then t.takeMiss p else t) : Host.Outcome State Fault Refusal)) h.reach

/-- The miss that reaches the limit is due as the command of the position's state (log entry 7). -/
theorem State.missDue_iff {st : MemberState} : s.missDue p st = true
    ↔ s.awaits p = true ∧ (s.member p).state = st ∧ s.atLimit ((s.member p).misses + 1) = true := by
  simp [State.missDue, and_assoc]

/-- One more miss of the position is counted (R122). -/
def State.missed (s : State) (p : Position) : State :=
  s.responseTaken.setMember p { s.member p with misses := (s.member p).misses + 1 }

theorem State.countMiss_below (h : s.atLimit ((s.member p).misses + 1) = false) : s.responseTaken.countMiss p = s.missed p :=
  if_neg (Bool.eq_false_iff.1 h)

theorem State.countMiss_joined (h : s.atLimit ((s.member p).misses + 1) = true) (hst : (s.member p).state = .joined) :
    s.responseTaken.countMiss p = (s.missed p).loseMember p := by
  have hst' : (s.responseTaken.member p).state = .joined := hst
  have hat : s.responseTaken.atLimit ((s.responseTaken.member p).misses + 1) = true := h
  rcases s.responseTaken.countMiss_cases p with ⟨-, hno⟩ | ⟨he, -⟩ | ⟨-, -, hadm⟩
  · simp [hat, hst'] at hno
  · exact he
  · rw [hst'] at hadm
    cases hadm

theorem State.countMiss_admitting (h : s.atLimit ((s.member p).misses + 1) = true) (hst : (s.member p).state = .admitting) :
    s.responseTaken.countMiss p = (s.missed p).failAdmission p := by
  have hst' : (s.responseTaken.member p).state = .admitting := hst
  have hat : s.responseTaken.atLimit ((s.responseTaken.member p).misses + 1) = true := h
  rcases s.responseTaken.countMiss_cases p with ⟨-, hno⟩ | ⟨-, -, hj⟩ | ⟨he, -⟩
  · simp [hat, hst'] at hno
  · rw [hst'] at hj
    cases hj
  · exact he

theorem State.missed_failAdmission (s : State) (h0 : p ≠ 0) : (s.missed p).failAdmission p =
    let t := s.responseTaken.setMember p { s.member p with state := .vacant, identity := none, misses := 0 }
    let left := s.chain.delivery.filter fun d => d != .answer p && d != .assign p
    ({ t with chain := { t.chain with delivery := left } } : State).raiseMember p Reason.admitFailed := by
  simp only [State.failAdmission, State.missed, State.member_setMember_self _ h0, State.setMember_setMember, State.dropDelivery,
    withoutDelivery_position]
  simp [State.responseTaken]

end

/-- Settles O43: a miss below the limit counts; at the limit it is a loss or a failed admission, by either command or word. -/
theorem missesReachTheLimit : Obligations.MissesReachTheLimit := by
  unfold Obligations.MissesReachTheLimit
  intro s p h0 hs
  have hword {k} (hu : s.unanswered = some (.addressed k p)) : exec (.responseWord 0) s = .next (s.responseTaken.countMiss p) := by
    rw [exec_responseWord hs, State.takeResponse_invalid hs.settled.frame hu State.validResponse_zero]
  refine ⟨fun k m hu hm => ⟨fun hlt => ?_, fun hle hst => ?_, fun hle hst => ?_⟩, fun hno => ?_⟩
  · have hbelow : s.atLimit ((s.member p).misses + 1) = false :=
      Bool.eq_false_iff.2 fun hc => absurd ((State.atLimit_iff hm).1 hc) (by omega)
    have hdue (st) : ¬s.missDue p st = true := fun hc => by rw [(State.missDue_iff.1 hc).2.2] at hbelow; cases hbelow
    rw [hword hu, exec_memberLoss hs, exec_admissionFailure hs, if_neg (hdue _), if_neg (hdue _), State.countMiss_below hbelow]
    exact ⟨rfl, rfl, rfl⟩
  · have hat := (State.atLimit_iff hm).2 hle
    have haw := State.awaits_iff.2 ⟨hs.settled.frame, k, hu⟩
    have hother : ¬s.missDue p .admitting = true := fun hc => by rw [(State.missDue_iff.1 hc).2.1] at hst; cases hst
    rw [hword hu, exec_memberLoss hs, exec_admissionFailure hs, if_pos (State.missDue_iff.2 ⟨haw, hst, hat⟩), if_neg hother,
      State.countMiss_joined hat hst]
    exact ⟨rfl, rfl, rfl⟩
  · have hat := (State.atLimit_iff hm).2 hle
    have haw := State.awaits_iff.2 ⟨hs.settled.frame, k, hu⟩
    have hother : ¬s.missDue p .joined = true := fun hc => by rw [(State.missDue_iff.1 hc).2.1] at hst; cases hst
    rw [hword hu, exec_memberLoss hs, exec_admissionFailure hs, if_pos (State.missDue_iff.2 ⟨haw, hst, hat⟩), if_neg hother,
      State.countMiss_admitting hat hst, s.missed_failAdmission h0]
    exact ⟨rfl, rfl, rfl⟩
  · have hdue (st) : ¬s.missDue p st = true := fun hc => by
      obtain ⟨-, k, hu⟩ := State.awaits_iff.1 (State.missDue_iff.1 hc).1
      exact hno k hu
    rw [exec_memberLoss hs, exec_admissionFailure hs, if_neg (hdue _), if_neg (hdue _)]
    exact ⟨rfl, rfl⟩

/-! ## The release check (R129, R130) -/

section
variable (s : State) {p q : Position}

/-- A LOST position may be released: no lease names it, and it is 15 or the position above it is VACANT (R129). -/
def State.Releases (s : State) (p : Position) : Prop :=
  (s.member p).state = .lost ∧ s.named p = false ∧ (p = 15 ∨ (s.member (p + 1)).state = .vacant)

theorem State.releaseOne_releases {s : State} (h : s.Releases p) : s.releaseOne p
    = (s.setMember p { s.member p with state := .vacant, identity := none, misses := 0 }).raiseMember p Reason.vacated := if_pos h

theorem State.releaseOne_stays {s : State} (h : ¬s.Releases p) : s.releaseOne p = s := if_neg h

theorem State.raiseMember_item_self (h0 : p ≠ 0) (r : Reasons) :
    (s.raiseMember p r).attention.members[memberIndex p] = s.attention.members[memberIndex p] ||| r := by
  simp [State.raiseMember, h0]

theorem State.raiseMember_item_of_ne (hp : p ≠ 0) (hq : q ≠ 0) (h : q ≠ p) (r : Reasons) :
    (s.raiseMember p r).attention.members[memberIndex q] = s.attention.members[memberIndex q] := by
  have hne : (memberIndex p).val ≠ (memberIndex q).val := fun hc => h (memberIndex_inj hq hp (Fin.ext hc.symm))
  simp [State.raiseMember, hp, hne]

/-- The check of one position leaves the others. -/
theorem State.releaseOne_of_ne (hp : p ≠ 0) (h : q ≠ p) : (s.releaseOne p).member q = s.member q
    ∧ (q ≠ 0 → (s.releaseOne p).attention.members[memberIndex q] = s.attention.members[memberIndex q]) := by
  by_cases hr : s.Releases p
  · rw [State.releaseOne_releases hr, State.raiseMember_member, State.member_setMember_of_ne s h]
    refine ⟨rfl, fun hq => ?_⟩
    rw [State.raiseMember_item_of_ne _ hp hq h, State.setMember_attention]
  · rw [State.releaseOne_stays hr]
    exact ⟨rfl, fun _ => rfl⟩

/-- The positions checked, in turn, leave every other one. -/
theorem State.releases_of_notMem {ps : List Position} (h0 : ∀ p ∈ ps, p ≠ 0) (hq : q ∉ ps) :
    (ps.foldl State.releaseOne s).member q = s.member q
    ∧ (q ≠ 0 → (ps.foldl State.releaseOne s).attention.members[memberIndex q] = s.attention.members[memberIndex q]) := by
  induction ps generalizing s with
  | nil => exact ⟨rfl, fun _ => rfl⟩
  | cons p ps ih =>
    rw [List.mem_cons, not_or] at hq
    obtain ⟨hm, hi⟩ := s.releaseOne_of_ne (h0 p List.mem_cons_self) hq.1
    obtain ⟨hm', hi'⟩ := ih (s.releaseOne p) (fun p hp => h0 p (List.mem_cons_of_mem _ hp)) hq.2
    exact ⟨hm'.trans hm, fun h => (hi' h).trans (hi h)⟩

theorem State.releases_leases (ps : List Position) : (ps.foldl State.releaseOne s).leases = s.leases := by
  induction ps generalizing s with
  | nil => rfl
  | cons p ps ih => exact (ih (s.releaseOne p)).trans (by simp)

theorem State.named_congr {s t : State} (h : t.leases = s.leases) (p : Position) : t.named p = s.named p := by
  simp only [State.named, State.lease?, h]

/-- The order of the check around a position: those above it first (R129). -/
theorem releaseOrder : ∀ p : Position, p ≠ 0 → ∃ above below, memberPositions.reverse = above ++ p :: below
    ∧ p ∉ above ∧ p ∉ below ∧ p + 1 ∉ below := by
  intro p h0
  refine ⟨memberPositions.reverse.filter fun q => p < q, memberPositions.reverse.filter fun q => q < p, ?_⟩
  revert h0
  revert p
  decide

/-- What the release check does at a position: it is released exactly when it may be after the check above it. -/
theorem State.releaseLost_at (h0 : p ≠ 0) :
    ((s.member p).state = .lost ∧ s.named p = false ∧ (p = 15 ∨ (s.releaseLost.member (p + 1)).state = .vacant) →
      s.releaseLost.member p = { s.member p with state := .vacant, identity := none, misses := 0 }
      ∧ s.releaseLost.attention.members[memberIndex p] = s.attention.members[memberIndex p] ||| Reason.vacated)
    ∧ (¬((s.member p).state = .lost ∧ s.named p = false ∧ (p = 15 ∨ (s.releaseLost.member (p + 1)).state = .vacant)) →
      s.releaseLost.member p = s.member p ∧ s.releaseLost.attention.members[memberIndex p] = s.attention.members[memberIndex p]) := by
  obtain ⟨above, below, horder, habove, hbelow, hnext⟩ := releaseOrder p h0
  have hpos : ∀ q ∈ above ++ p :: below, q ≠ 0 := fun q hq => mem_memberPositions.1 (List.mem_reverse.1 (horder ▸ hq))
  have hpos_above : ∀ q ∈ above, q ≠ 0 := fun q hq => hpos q (List.mem_append_left _ hq)
  have hpos_below : ∀ q ∈ below, q ≠ 0 := fun q hq => hpos q (List.mem_append_right _ (List.mem_cons_of_mem _ hq))
  have hfold : s.releaseLost = below.foldl State.releaseOne ((above.foldl State.releaseOne s).releaseOne p) := by
    rw [State.releaseLost, horder, List.foldl_append, List.foldl_cons]
  obtain ⟨hbefore, hitem⟩ := s.releases_of_notMem hpos_above habove
  obtain ⟨hafter, hitem'⟩ := ((above.foldl State.releaseOne s).releaseOne p).releases_of_notMem hpos_below hbelow
  have hup : (s.releaseLost.member (p + 1)).state = ((above.foldl State.releaseOne s).member (p + 1)).state := by
    rw [hfold, (State.releases_of_notMem _ hpos_below hnext).1, (State.releaseOne_of_ne _ h0 (position_succ_ne p)).1]
  have hiff : ((s.member p).state = .lost ∧ s.named p = false ∧ (p = 15 ∨ (s.releaseLost.member (p + 1)).state = .vacant))
      ↔ (above.foldl State.releaseOne s).Releases p := by
    rw [State.Releases, hbefore, State.named_congr (s.releases_leases above), hup]
  rw [hiff, hfold, hafter, hitem' h0]
  refine ⟨fun h => ?_, fun h => ?_⟩
  · rw [State.releaseOne_releases h, State.raiseMember_member, State.member_setMember_self _ h0, State.raiseMember_item_self _ h0,
      State.setMember_attention, hbefore, hitem h0]
    exact ⟨rfl, rfl⟩
  · rw [State.releaseOne_stays h, hbefore, hitem h0]
    exact ⟨rfl, rfl⟩

theorem State.releaseLost_frame : s.releaseLost = { s with
    members := { s.members with records := s.releaseLost.members.records }
    attention := { s.attention with members := s.releaseLost.attention.members } } := by
  refine State.releaseLost_keeps (P := fun t => t = { s with
    members := { s.members with records := t.members.records }
    attention := { s.attention with members := t.attention.members } }) (fun t p h => ?_) rfl
  by_cases hr : t.Releases p
  · rw [State.releaseOne_releases hr, State.setMember, State.raiseMember]
    split
    · exact h
    · rw [h]
  · rwa [State.releaseOne_stays hr]

end

theorem State.named_iff_names {s : State} {p : Position} : s.named p = false
    ↔ ∀ i l, s.lease? i = some l → l.source ≠ p ∧ ∀ c ∈ l.configurations, hasListener c.listeners p = false := by
  simp only [State.named_eq_false_iff, Lease.names_eq_false_iff, Lease.listensAt, List.any_eq_false, Bool.not_eq_true]

/-- Settles O45: each position is decided by the check above it, and the check of the others leaves it. -/
theorem lostPositionsAreReleased : Obligations.LostPositionsAreReleased := by
  unfold Obligations.LostPositionsAreReleased
  intro s
  refine ⟨s.releaseLost_frame, fun p h0 => ?_⟩
  have h := s.releaseLost_at h0
  rw [State.named_iff_names] at h
  exact h

end Sys2Proof.Machine
end

section
/-! PROOFS. UP_SLOT_READ (R150, R151, R160): the bits of the slot, what they make of the lease, and the word of the channel. -/

namespace Sys2Proof.Machine

/-! ## The bits of the slot (R24) -/

section
variable (region : BitVec 440) (o k : Nat) (w : Width)

theorem Width.bits_le (w : Width) : w.bits ≤ 32 := by cases w <;> decide

theorem slotFromRegion_evenOnes : EvenOnes (slotFromRegion region o w k) 0 (w.bits + 2) ↔ EvenOnes region (o + k * (w.bits + 2)) (w.bits + 2) := by
  have hbits : (List.range (w.bits + 2)).countP (fun j => (slotFromRegion region o w k).getMsbD (0 + j))
      = (List.range (w.bits + 2)).countP fun j => region.getMsbD (o + k * (w.bits + 2) + j) := by
    refine List.countP_congr fun j hj => ?_
    have := w.bits_le
    rw [Nat.zero_add, slotFromRegion_getMsbD region o w k j (by rw [List.mem_range] at hj; omega)]
  rw [EvenOnes, EvenOnes, hbits]

theorem slotFill_region : slotFill w (slotFromRegion region o w k) = region.getMsbD (o + k * (w.bits + 2) + w.bits) :=
  slotFromRegion_getMsbD region o w k w.bits (by have := w.bits_le; omega)

theorem slotParityGood_region : slotParityGood w (slotFromRegion region o w k) = true ↔ EvenOnes region (o + k * (w.bits + 2)) (w.bits + 2) :=
  (evenOnes_iff _ _).trans (slotFromRegion_evenOnes region o k w)

theorem slotData_region {word : BitVec 32}
    (h : ∀ j, j < 32 → word.getMsbD j = (decide (j < w.bits) && region.getMsbD (o + k * (w.bits + 2) + j))) :
    slotData w (slotFromRegion region o w k) = word := by
  refine BitVec.eq_of_getMsbD_eq fun j hj => ?_
  rw [slotData_getMsbD w _ j hj, slotFromRegion_getMsbD region o w k j (by omega), h j hj]

end

/-! ## The lease and the word (R12, R106, R107, R150, R160) -/

/-- The lease after a slot of it has been read in frame n. -/
def Lease.afterSlot (l : Lease) (n : FrameNumber) (bits : BitVec 34) : Lease :=
  if slotFill l.active.width bits then
    if slotParityGood l.active.width bits then { (l.renewed n l.term).getD l with heard := true }
    else { l with parityFaults := if l.parityFaults = 255 then 255 else l.parityFaults + 1 }
  else l

section
variable {l l' : Lease} {n : FrameNumber} {bits : BitVec 34}

theorem slotEvent_eq {e : Entry} (he : e.lease = some l) : slotEvent e l n bits = e.put (l.afterSlot n bits) := by
  have hself : Entry.put e l = .unchanged e := by
    rw [Entry.put, EntryEvent.unchanged, ← he]
  unfold slotEvent Lease.afterSlot
  split
  · split <;> rfl
  · exact hself.symm

theorem Lease.renewed_stays (h : ¬(l.mark = none ∨ l.mark = some ⟨.expired, .staged⟩)) (t : Term) : l.renewed n t = none := by
  unfold Lease.renewed
  split
  · next hm => exact absurd (.inl hm) h
  · next hm => exact absurd (.inr hm) h
  · rfl

theorem Lease.heardAfter (hdone : l.mark = none ∨ l.mark = some ⟨.expired, .staged⟩ → l' = { l with
      heard := true, mark := none
      expiry := if l.term = 0 then none else some (n + l.term.zeroExtend 32 * 64) })
    (hother : ¬(l.mark = none ∨ l.mark = some ⟨.expired, .staged⟩) → l' = { l with heard := true }) :
    { (l.renewed n l.term).getD l with heard := true } = l' := by
  by_cases hm : l.mark = none ∨ l.mark = some ⟨.expired, .staged⟩
  · rw [hdone hm, Lease.renewed_done hm]
    rfl
  · rw [hother hm, Lease.renewed_stays hm]
    rfl

/-- What a slot at a place of the region makes of its lease and of its channel, by its fill and its parity. -/
theorem Lease.afterSlot_region {word : BitVec 32} {region : BitVec 440} {o k : Nat} (hbits : bits = slotFromRegion region o l.active.width k)
    (hgood : region.getMsbD (o + k * (l.active.width.bits + 2) + l.active.width.bits) = true →
      EvenOnes region (o + k * (l.active.width.bits + 2)) (l.active.width.bits + 2) →
      slotData l.active.width bits = word ∧ { (l.renewed n l.term).getD l with heard := true } = l')
    (hbad : region.getMsbD (o + k * (l.active.width.bits + 2) + l.active.width.bits) = true →
      ¬EvenOnes region (o + k * (l.active.width.bits + 2)) (l.active.width.bits + 2) →
      word = 0 ∧ l' = { l with parityFaults := if l.parityFaults = 255 then 255 else l.parityFaults + 1 })
    (hempty : region.getMsbD (o + k * (l.active.width.bits + 2) + l.active.width.bits) = false → word = 0 ∧ l' = l) :
    gatheredWord l.active.width bits = word ∧ l.afterSlot n bits = l' := by
  subst hbits
  rw [← slotFill_region] at hgood hbad hempty
  rw [← slotParityGood_region] at hgood hbad
  unfold gatheredWord Lease.afterSlot
  cases hf : slotFill l.active.width (slotFromRegion region o l.active.width k)
  · obtain ⟨rfl, rfl⟩ := hempty hf
    exact ⟨rfl, rfl⟩
  · cases hp : slotParityGood l.active.width (slotFromRegion region o l.active.width k)
    · obtain ⟨rfl, rfl⟩ := hbad hf (by rw [hp]; decide)
      exact ⟨rfl, rfl⟩
    · exact hgood hf hp

end

/-! ## The read -/

section
variable {s : State} {i : LeaseIndex} {k : Fin 8} {l : Lease} {region : BitVec 440} {o : Nat}

theorem exec_upSlotRead (h : s.AtUpRegion) (i : LeaseIndex) (k : Fin 8) (region : BitVec 440) :
    exec (.upSlotRead i k region) s = .next (s.readSlot i k region) :=
  congrArg (fun t : State => (Host.Outcome.next (t.readSlot i k region) : Host.Outcome State Fault Refusal)) h.reach

theorem State.readsSlot_iff (hf : s.inFrame = true) : s.readsSlot i l k = true ↔ l.direction = .up ∧ hasListener l.active.listeners 0 = true
    ∧ k.val < l.active.count ∧ (i, k) ∉ s.chain.frame.slotsRead := by
  simp [State.readsSlot, hf, and_assoc]

/-- The slot is marked as read in the frame (log entry 10). -/
def State.slotTaken (s : State) (i : LeaseIndex) (k : Fin 8) : State :=
  s.setFrame { s.chain.frame with slotsRead := (i, k) :: s.chain.frame.slotsRead }

theorem State.takeSlot_eq (hl : s.lease? i = some l) (bits : BitVec 34) : s.takeSlot i l k bits
    = ((s.slotTaken i k).gatherSlot l k.val bits).withLease i (l.afterSlot s.chain.counter bits) := by
  have hentry : ((s.slotTaken i k).gatherSlot l k.val bits).leases[i] = s.leases[i] := by
    rw [(State.gatherSlot_leases ..).1]
    rfl
  have he : s.leases[i].lease = some l := hl
  refine Eq.trans ?_ (State.onEntry_put _ i _)
  rw [hentry, ← slotEvent_eq he]
  rfl

theorem State.readSlot_idle (h : ∀ l o, s.lease? i = some l → l.active.placement = some o → s.readsSlot i l k = false) :
    s.readSlot i k region = s := by
  rcases s.readSlot_cases i k region with ⟨hs, -⟩ | ⟨l, o, hl, ho, hr, -⟩
  · exact hs
  · rw [h l o hl ho] at hr
    cases hr

theorem State.readSlot_at (hl : s.lease? i = some l) (ho : l.active.placement = some o) (hr : s.readsSlot i l k = true) :
    s.readSlot i k region = s.takeSlot i l k (slotFromRegion region o l.active.width k.val) := by
  simp only [State.readSlot, hl, ho, hr, if_true]

theorem State.gatherSlot_unbound (hb : l.base = none) (k : Nat) (bits : BitVec 34) : s.gatherSlot l k bits = s := by
  simp only [State.gatherSlot, hb]

theorem State.gatherSlot_bound {b : Channel} {k : Nat} (hb : l.base = some b) (h : b.val + k < 32) (bits : BitVec 34) : s.gatherSlot l k bits
    = { s with localPort := { s.localPort with
        gathering := s.localPort.gathering.set (b.val + k) (gatheredWord l.active.width bits) h } } := by
  simp only [State.gatherSlot, hb, LocalPort.gather, dif_pos h]

end

/-- Settles O47: a slot is read at the active configuration's offset, and its fill and parity decide. -/
theorem upSlotsAreRead : Obligations.UpSlotsAreRead := by
  unfold Obligations.UpSlotsAreRead
  intro s i k region hs
  simp only [exec_upSlotRead hs]
  refine ⟨fun l hl => ⟨fun hno => ?_, fun o hreads ho l' word hgood hbad hempty => ?_⟩, fun hl => ?_⟩
  · refine congrArg _ (State.readSlot_idle fun l₀ o hl₀ ho => Bool.eq_false_iff.2 fun hr => ?_)
    cases hl.symm.trans hl₀
    exact hno.elim (fun h => h ((State.readsSlot_iff hs.response.settled.frame).1 hr)) fun h => by rw [ho] at h; cases h
  · obtain ⟨hword, hlease⟩ := Lease.afterSlot_region (n := s.chain.counter) (k := k.val) rfl
      (fun hf hp => (hgood hf hp).imp (slotData_region region o k.val l.active.width) fun h => Lease.heardAfter h.1 h.2) hbad hempty
    rw [State.readSlot_at hl ho ((State.readsSlot_iff hs.response.settled.frame).2 hreads), State.takeSlot_eq hl, hlease]
    refine ⟨fun hb => ?_, fun b h hb => ?_⟩
    · rw [State.gatherSlot_unbound hb]
      rfl
    · rw [State.gatherSlot_bound hb h, hword]
      rfl
  · refine congrArg _ (State.readSlot_idle fun l o hl' _ => ?_)
    rw [hl] at hl'
    cases hl'

end Sys2Proof.Machine
end

section
/-! PROOFS. DOWN_REGION_DRIVE (R24, R149, R159): the bits of one slot, and the region as the union of the slots of the head's leases. -/

namespace Sys2Proof.Machine

/-! ## The bits of a slot (R24) -/

section
variable {w : Width} {word : BitVec 32} {fill : Bool} {o k : Nat}

/-- The parity bit of a slot (R24). -/
def slotParity (w : Width) (word : BitVec 32) (fill : Bool) : Bool := xor (!(evenOnes word w.bits)) fill

/-- The bits of a slot from its first on: data, fill, parity (R24). -/
def slotBit (w : Width) (word : BitVec 32) (fill : Bool) (j : Nat) : Bool :=
  if j < w.bits then word.getMsbD j else if j = w.bits then fill else slotParity w word fill

/-- The slot counted from its last bit: parity, fill, data. -/
theorem slotBits_getLsbD {m : Nat} (hm : m < 440) : (slotBits w word fill).getLsbD m
    = if m < w.bits + 2 then slotBit w word fill (w.bits + 1 - m) else false := by
  have hw := w.bits_le
  simp only [slotBits, BitVec.getLsbD_or, BitVec.getLsbD_shiftLeft, BitVec.getLsbD_setWidth, BitVec.getLsbD_ushiftRight, flagBit,
    slotBit, slotParity, hm, decide_true, Bool.true_and]
  rcases Nat.lt_or_ge m 2 with hlow | hhigh
  · have hsmall : m < w.bits + 2 := by omega
    have hdata : ¬w.bits + 1 - m < w.bits := by omega
    rw [if_pos hsmall, if_neg hdata]
    rcases Nat.lt_or_ge m 1 with h0 | h1
    · obtain rfl : m = 0 := by omega
      simp
    · obtain rfl : m = 1 := by omega
      simp
  · have h1 : ¬m < 1 := by omega
    have h2 : ¬m < 2 := by omega
    have hflag : (BitVec.ofBool fill).getLsbD (m - 1) = false := BitVec.getLsbD_of_ge _ _ (by omega)
    have hpar (b : Bool) : (BitVec.ofBool b).getLsbD m = false := BitVec.getLsbD_of_ge _ _ (by omega)
    have hwide : m - 2 < 440 := by omega
    simp only [h1, h2, hflag, hpar, hwide, decide_true, decide_false, Bool.not_false, Bool.true_and, Bool.and_false, Bool.or_false]
    by_cases hin : m < w.bits + 2
    · have hdata : w.bits + 1 - m < w.bits := by omega
      have hback : 32 - 1 - (w.bits + 1 - m) = 32 - w.bits + (m - 2) := by omega
      have hword : w.bits + 1 - m < 32 := by omega
      rw [if_pos hin, if_pos hdata, BitVec.getMsbD_eq_getLsbD, hback]
      simp [hword]
    · rw [if_neg hin]
      exact BitVec.getLsbD_of_ge _ _ (by omega)

/-- A bit of the region as a slot gives it: the slot's bit where the slot lies, else zero (R24). -/
theorem slotInRegion_getMsbD {x : Nat} (hx : x < 440) (h : o + k * (w.bits + 2) + (w.bits + 2) ≤ 440) :
    (slotInRegion o w k word fill).getMsbD x = if o + k * (w.bits + 2) ≤ x ∧ x < o + k * (w.bits + 2) + (w.bits + 2)
      then slotBit w word fill (x - (o + k * (w.bits + 2))) else false := by
  have hend : o + (k + 1) * (w.bits + 2) = o + k * (w.bits + 2) + (w.bits + 2) := by rw [Nat.succ_mul, Nat.add_assoc]
  unfold slotInRegion
  rw [hend, show Config.regionBits = 440 from rfl, BitVec.getMsbD_eq_getLsbD, BitVec.getLsbD_shiftLeft]
  generalize o + k * (w.bits + 2) = first at h ⊢
  by_cases hin : x < first + (w.bits + 2)
  · have hle : ¬440 - 1 - x < 440 - (first + (w.bits + 2)) := by omega
    have hbit : 440 - 1 - x - (440 - (first + (w.bits + 2))) = first + w.bits + 1 - x := by omega
    rw [hbit, slotBits_getLsbD (by omega)]
    by_cases hfirst : first ≤ x
    · have h1 : first + w.bits + 1 - x < w.bits + 2 := by omega
      have h2 : w.bits + 1 - (first + w.bits + 1 - x) = x - first := by omega
      rw [if_pos h1, h2, if_pos ⟨hfirst, hin⟩]
      simp [hx, hle]
      omega
    · have h1 : ¬first + w.bits + 1 - x < w.bits + 2 := by omega
      rw [if_neg h1, if_neg fun hc => hfirst hc.1, Bool.and_false, Bool.and_false]
  · have hlt : 440 - 1 - x < 440 - (first + (w.bits + 2)) := by omega
    rw [if_neg fun hc => hin hc.2]
    simp [hlt]

/-- The parity bit makes the ones of a slot even in number (R24). -/
theorem slotBit_evenOnes (w : Width) (word : BitVec 32) (fill : Bool) :
    ((List.range (w.bits + 2)).countP fun j => slotBit w word fill j) % 2 = 0 := by
  have hdata : (List.range w.bits).countP (fun j => slotBit w word fill j) = (List.range w.bits).countP fun j => word.getMsbD (0 + j) := by
    refine List.countP_congr fun j hj => ?_
    rw [slotBit, if_pos (List.mem_range.1 hj), Nat.zero_add]
  have hfill : slotBit w word fill w.bits = fill := by simp [slotBit]
  have hlast : slotBit w word fill (w.bits + 1) = slotParity w word fill := by simp [slotBit]
  have hpar := evenOnes_iff word w.bits
  rw [EvenOnes, ← hdata] at hpar
  rw [show w.bits + 2 = w.bits + 1 + 1 from rfl, List.range_succ, List.range_succ, List.countP_append, List.countP_append,
    List.countP_singleton, List.countP_singleton, hfill, hlast, slotParity]
  generalize (List.range w.bits).countP (fun j => slotBit w word fill j) = n at hpar ⊢
  cases he : evenOnes word w.bits
  · have hodd : ¬n % 2 = 0 := fun hc => by rw [hpar.2 hc] at he; cases he
    cases fill <;> simp only [Bool.not_false, Bool.xor_false, Bool.xor_true, Bool.not_true, Bool.false_eq_true, if_true, if_false] <;> omega
  · have heven := hpar.1 he
    cases fill <;> simp only [Bool.not_false, Bool.xor_false, Bool.xor_true, Bool.not_true, Bool.false_eq_true, if_true, if_false] <;> omega

end

/-! ## The region as the union of the slots (R149) -/

theorem foldl_or_getMsbD {α : Type} (f : α → BitVec 440) (x : Nat) : ∀ (as : List α) (r : BitVec 440),
    (as.foldl (fun r a => r ||| f a) r).getMsbD x = (r.getMsbD x || as.any fun a => (f a).getMsbD x)
  | [], r => by simp
  | a :: as, r => by rw [List.foldl_cons, foldl_or_getMsbD f x as, BitVec.getMsbD_or, List.any_cons, Bool.or_assoc]

theorem zero_getMsbD (x : Nat) : (0 : BitVec 440).getMsbD x = false := by simp [BitVec.getMsbD_eq_getLsbD]

/-- A bit of a union is a bit of one of its parts. -/
theorem union_getMsbD {α : Type} {f : α → BitVec 440} {x : Nat} {as : List α} :
    (as.foldl (fun r a => r ||| f a) 0).getMsbD x = true ↔ ∃ a ∈ as, (f a).getMsbD x = true := by
  rw [foldl_or_getMsbD, zero_getMsbD, Bool.false_or, List.any_eq_true]

section
variable {s : State} {i : LeaseIndex} {l : Lease} {o x : Nat}

/-- The head drives the slots of the lease at the offset: a placed source-0 lease (R149). -/
structure State.Drives (s : State) (i : LeaseIndex) (l : Lease) (o : Nat) : Prop where
  lease     : s.lease? i = some l
  direction : l.direction = .down
  source    : l.source = 0
  placement : l.active.placement = some o

/-- Slot k of the lease in the region (R159). -/
def State.drivenSlot (s : State) (l : Lease) (o k : Nat) : BitVec 440 :=
  slotInRegion o l.active.width k (s.localPort.slotFeed l.base k).1 (s.localPort.slotFeed l.base k).2

/-- What an entry contributes to the region. -/
def State.entryDownBits (s : State) (i : LeaseIndex) : BitVec 440 := ((s.lease? i).map s.leaseDownBits).getD 0

theorem State.downBits_eq (s : State) : s.downBits = allLeases.foldl (fun r i => r ||| s.entryDownBits i) 0 := by
  unfold State.downBits
  congr 1
  funext r i
  unfold State.entryDownBits
  cases s.lease? i <;> simp

theorem State.leaseDownBits_getMsbD : (s.leaseDownBits l).getMsbD x = true
    ↔ l.direction = .down ∧ l.source = 0 ∧ ∃ o, l.active.placement = some o ∧ ∃ k, k < l.active.count ∧ (s.drivenSlot l o k).getMsbD x = true := by
  unfold State.leaseDownBits
  split
  · next h =>
    obtain ⟨hd, hs⟩ := h
    split
    · next hp => simp [hp]
    · next o hp =>
      refine union_getMsbD (f := s.drivenSlot l o).trans ?_
      simp [hd, hs, hp]
  · next h =>
    rw [zero_getMsbD]
    refine iff_of_false Bool.false_ne_true ?_
    rintro ⟨hd, hs, -⟩
    exact h ⟨hd, hs⟩

/-- A bit of the DOWN region is one exactly when some slot of a lease that the head drives has it (R149). -/
theorem State.downBits_getMsbD : s.downBits.getMsbD x = true
    ↔ ∃ i l o, s.Drives i l o ∧ ∃ k, k < l.active.count ∧ (s.drivenSlot l o k).getMsbD x = true := by
  rw [s.downBits_eq, union_getMsbD]
  constructor
  · rintro ⟨i, -, hi⟩
    unfold State.entryDownBits at hi
    cases hl : s.lease? i with
    | none =>
      rw [hl] at hi
      cases (zero_getMsbD x).symm.trans hi
    | some l =>
      rw [hl] at hi
      obtain ⟨hd, hs, o, hp, hk⟩ := State.leaseDownBits_getMsbD.1 hi
      exact ⟨i, l, o, ⟨hl, hd, hs, hp⟩, hk⟩
  · rintro ⟨i, l, o, h, hk⟩
    refine ⟨i, List.mem_finRange i, ?_⟩
    rw [State.entryDownBits, h.lease]
    exact State.leaseDownBits_getMsbD.2 ⟨h.direction, h.source, o, h.placement, hk⟩

/-! ## The slots lie apart -/

/-- A slot lies within its lease's run. -/
theorem Configuration.slot_within {c : Configuration} {k : Nat} (o : Nat) (hk : k < c.count) :
    o + k * (c.width.bits + 2) + (c.width.bits + 2) ≤ o + c.cost := by
  have := Nat.mul_le_mul_right (c.width.bits + 2) (Nat.succ_le_of_lt hk)
  rw [Nat.succ_mul] at this
  unfold Configuration.cost
  omega

theorem State.Drives.lawful (h : s.Drives i l o) (ht : s.TableLawful) : l.active.Lawful l.direction l.source :=
  (ht.leases i l h.lease).configs _ (Lease.mem_configurations.2 (.inl rfl))

/-- The run of a driven lease, which starts at hop 0. -/
theorem State.Drives.run (h : s.Drives i l o) (ht : s.TableLawful) :
    ∃ a, l.active.run? l.direction l.source = some a ∧ ∀ x, o ≤ x → x < o + l.active.cost → a.Covers 0 x := by
  have hlaw := h.lawful ht
  have hne : l.active.listeners ≠ 0 := hlaw.placed.1 (by rw [h.placement]; rfl)
  obtain ⟨p, hp⟩ := listeners_ne_zero_iff.1 hne
  have hside := hlaw.side p hp
  rw [h.direction, h.source] at hside
  have hpos : 0 < highestListener l.active.listeners := by
    have hle := (highestListener_spec l.active.listeners).1 p.val p.isLt hp
    have : (0 : Position) < p := by simpa [onSide] using hside
    exact Nat.lt_of_lt_of_le this hle
  refine ⟨_, Configuration.run?_some.2 ⟨hne, o, h.placement, rfl⟩, fun x h1 h2 => ?_⟩
  rw [h.direction, h.source]
  exact ⟨le_rfl, hpos, h1, h2⟩

/-- No two leases drive the same bit (R30). -/
theorem State.Drives.unique {j : LeaseIndex} {m : Lease} {o' : Nat} (h : s.Drives i l o) (h' : s.Drives j m o') (ht : s.TableLawful)
    (hlay : s.LayoutLawful) (hx : o ≤ x ∧ x < o + l.active.cost) (hx' : o' ≤ x ∧ x < o' + m.active.cost) : i = j := by
  by_contra hij
  obtain ⟨a, ha, hac⟩ := h.run ht
  obtain ⟨b, hb, hbc⟩ := h'.run ht
  exact hlay.active i j l m hij h.lease h'.lease (h.direction.trans h'.direction.symm) a b ha hb 0 x
    ⟨hac x hx.1 hx.2, hbc x hx'.1 hx'.2⟩

/-- A bit of a driven slot lies in the slot. -/
theorem State.Drives.slot {k : Nat} (h : s.Drives i l o) (ht : s.TableLawful) (hk : k < l.active.count) (hx : x < 440) :
    (s.drivenSlot l o k).getMsbD x = if o + k * (l.active.width.bits + 2) ≤ x
        ∧ x < o + k * (l.active.width.bits + 2) + (l.active.width.bits + 2)
      then slotBit l.active.width (s.localPort.slotFeed l.base k).1 (s.localPort.slotFeed l.base k).2
        (x - (o + k * (l.active.width.bits + 2))) else false :=
  slotInRegion_getMsbD hx ((Configuration.slot_within o hk).trans ((h.lawful ht).within o h.placement))

theorem slot_index_unique {b k k' x o : Nat} (h : o + k * b ≤ x ∧ x < o + k * b + b) (h' : o + k' * b ≤ x ∧ x < o + k' * b + b) : k = k' := by
  rcases Nat.lt_trichotomy k k' with hlt | he | hlt
  · have := Nat.mul_le_mul_right b (Nat.succ_le_of_lt hlt)
    rw [Nat.succ_mul] at this
    omega
  · exact he
  · have := Nat.mul_le_mul_right b (Nat.succ_le_of_lt hlt)
    rw [Nat.succ_mul] at this
    omega

/-- Where a slot of a driven lease lies, the region holds the slot's bits. -/
theorem State.Drives.region {k j : Nat} (h : s.Drives i l o) (ht : s.TableLawful) (hlay : s.LayoutLawful) (hk : k < l.active.count)
    (hj : j < l.active.width.bits + 2) : s.downBits.getMsbD (o + k * (l.active.width.bits + 2) + j)
      = slotBit l.active.width (s.localPort.slotFeed l.base k).1 (s.localPort.slotFeed l.base k).2 j := by
  have hin := Configuration.slot_within (c := l.active) o hk
  have hregion := (h.lawful ht).within o h.placement
  have hx : o + k * (l.active.width.bits + 2) + j < 440 := by omega
  have hbit : (s.drivenSlot l o k).getMsbD (o + k * (l.active.width.bits + 2) + j)
      = slotBit l.active.width (s.localPort.slotFeed l.base k).1 (s.localPort.slotFeed l.base k).2 j := by
    rw [h.slot ht hk hx, if_pos ⟨by omega, by omega⟩, Nat.add_sub_cancel_left]
  rw [Bool.eq_iff_iff, State.downBits_getMsbD]
  refine ⟨fun ⟨i', l', o', h', k', hk', hb⟩ => ?_, fun hb => ⟨i, l, o, h, k, hk, hbit.trans hb⟩⟩
  have hb' := hb
  rw [h'.slot ht hk' hx] at hb'
  split at hb'
  · next hslot =>
    have hin' := Configuration.slot_within (c := l'.active) o' hk'
    obtain rfl := h.unique h' ht hlay (x := o + k * (l.active.width.bits + 2) + j) ⟨by omega, by omega⟩ ⟨by omega, by omega⟩
    cases h.lease.symm.trans h'.lease
    cases h.placement.symm.trans h'.placement
    obtain rfl : k' = k := slot_index_unique hslot ⟨by omega, by omega⟩
    exact hbit.symm.trans hb
  · cases hb'

/-- Where no driven lease lies, the region is zero (R149). -/
theorem State.downBits_elsewhere (ht : s.TableLawful) (hx : x < 440)
    (h : ∀ i l o, s.Drives i l o → ¬(o ≤ x ∧ x < o + l.active.cost)) : s.downBits.getMsbD x = false := by
  refine Bool.eq_false_iff.2 fun hb => ?_
  obtain ⟨i, l, o, hd, k, hk, hb⟩ := State.downBits_getMsbD.1 hb
  rw [hd.slot ht hk hx] at hb
  split at hb
  · next hslot =>
    have hin := Configuration.slot_within (c := l.active) o hk
    exact h i l o hd ⟨by omega, by omega⟩
  · cases hb

/-- The region holds a slot with a word and a fill bit (R24). -/
theorem State.Drives.holds {k : Nat} {word : BitVec 32} {fill : Bool} (h : s.Drives i l o) (ht : s.TableLawful) (hlay : s.LayoutLawful)
    (hk : k < l.active.count) (hfeed : s.localPort.slotFeed l.base k = (word, fill)) :
    (∀ j, j < l.active.width.bits → s.downBits.getMsbD (o + k * (l.active.width.bits + 2) + j) = word.getMsbD j)
    ∧ s.downBits.getMsbD (o + k * (l.active.width.bits + 2) + l.active.width.bits) = fill
    ∧ EvenOnes s.downBits (o + k * (l.active.width.bits + 2)) (l.active.width.bits + 2) := by
  have hbit (j) (hj : j < l.active.width.bits + 2) := h.region ht hlay hk hj
  rw [hfeed] at hbit
  refine ⟨fun j hj => ?_, ?_, ?_⟩
  · rw [hbit j (by omega), slotBit, if_pos hj]
  · rw [hbit _ (by omega), slotBit, if_neg (lt_irrefl _), if_pos rfl]
  · rw [EvenOnes, ← slotBit_evenOnes l.active.width word fill]
    refine congrArg (· % 2) (List.countP_congr fun j hj => ?_)
    rw [hbit j (List.mem_range.1 hj)]

/-! ## The feed of the slots (R159) -/

theorem LocalPort.slotFeed_complete {p : LocalPort} {b : Channel} {k : Nat} (h : b.val + k < 32) (hc : p.input[b.val + k].complete = true) :
    p.slotFeed (some b) k = (p.input[b.val + k].word, true) := by
  simp only [LocalPort.slotFeed, LocalPort.inputAt, dif_pos h, hc, if_true]

theorem LocalPort.slotFeed_incomplete {p : LocalPort} {b : Channel} {k : Nat} (h : b.val + k < 32) (hc : p.input[b.val + k].complete = false) :
    p.slotFeed (some b) k = (0, false) := by
  simp only [LocalPort.slotFeed, LocalPort.inputAt, dif_pos h, hc, Bool.false_eq_true, if_false]

theorem exec_downRegionDrive (h : s.Settled) : exec .downRegionDrive s = .next s.driveDown :=
  congrArg (fun t : State => (Host.Outcome.next t.driveDown : Host.Outcome State Fault Refusal)) h.finish

end

/-- Settles O46: the region is the union of the slots, which lie apart. -/
theorem downRegionCarriesTheChannels : Obligations.DownRegionCarriesTheChannels := by
  unfold Obligations.DownRegionCarriesTheChannels
  intro s hs
  rw [exec_downRegionDrive hs]
  refine ⟨fun hd => by rw [State.driveDown_driven hd], fun hd ht hlay => ⟨s.downBits, ?_, fun i l o hl hdir hsrc hp k hk => ?_, fun x hx h => ?_⟩⟩
  · rw [State.driveDown, hs.frame, hd]
    rfl
  · have hdrives : s.Drives i l o := ⟨hl, hdir, hsrc, hp⟩
    refine ⟨fun b h hb => ⟨fun hc => ?_, fun hc => ?_⟩, fun hb => ?_⟩
    · exact hdrives.holds ht hlay hk (by rw [hb, LocalPort.slotFeed_complete h hc])
    · exact hdrives.holds ht hlay hk (by rw [hb, LocalPort.slotFeed_incomplete h hc])
    · exact hdrives.holds ht hlay hk (by rw [hb]; rfl)
  · exact State.downBits_elsewhere ht hx fun i l o hd => h i l o hd.lease hd.direction hd.source hd.placement

end Sys2Proof.Machine
end

section
/-! PROOFS. SET_APPLICATION in the switch frame (R20, R21, R92, R93). -/

namespace Sys2Proof.Machine

/-! ## Events on every entry -/

theorem State.onEveryEntry_item (s : State) (f : LeaseIndex → Entry → EntryEvent) (i : LeaseIndex) :
    (s.onEveryEntry f).attention.leases[i] = raiseItems s.attention.leases[i] s.leases[i].generation (f i s.leases[i]).raised := by
  rw [State.onEveryEntry_attention]
  simp [State.itemAfter]

/-- An event that stages nothing leaves everything but the entries and their items. -/
theorem State.onEveryEntry_unstaged {s : State} {f : LeaseIndex → Entry → EntryEvent} (h : ∀ i e, (f i e).staged = false) :
    s.onEveryEntry f = { s with
      leases := (s.onEveryEntry f).leases
      attention := { s.attention with leases := (s.onEveryEntry f).attention.leases } } := by
  have hnone : (allLeases.any fun i => (f i s.leases[i]).staged) = false := by simp [h]
  unfold State.onEveryEntry
  simp only [hnone, Bool.false_eq_true, if_false]

theorem Cause.byHost_iff {cause : Cause} : cause.byHost = true ↔ cause = .requested 0 := by
  cases cause <;> simp [Cause.byHost]

/-! ## One entry (R20) -/

section
variable {e : Entry} {l : Lease} {cause : Cause} {set : ChangeSet} {i : LeaseIndex}

theorem applyDelta_unstaged (e : Entry) : (applyDelta e).staged = false := by
  unfold applyDelta
  split
  · split <;> rfl
  · rfl

theorem settleEntry_unstaged (e : Entry) : (settleEntry e).staged = false := by
  unfold settleEntry
  split
  · split
    · split <;> rfl
    · rfl
    · split
      · split <;> rfl
      · rfl
  · rfl

theorem applyEntry_unstaged (set : ChangeSet) (i : LeaseIndex) (e : Entry) : (applyEntry set i e).staged = false := by
  simp only [applyEntry, EntryEvent.andThen, settleEntry_unstaged, Bool.or_false]
  split
  · exact applyDelta_unstaged e
  · rfl

/-- The lease with its sealed configuration in effect (R20). -/
def Lease.switched (l : Lease) : Lease := { l with active := l.sealedConfig.getD l.active, sealed := none }

theorem Lease.switched_self (h : l.sealed = none) : l.switched = l := by
  have hc : l.sealedConfig = none := by simp [Lease.sealedConfig, h]
  rw [Lease.switched, hc, Option.getD_none, ← h]

theorem applyDelta_applies (he : e.lease = some l) (hs : l.sealed ≠ some .retirement) : applyDelta e = e.put l.switched := by
  unfold applyDelta
  cases hsealed : l.sealed with
  | none =>
    rw [Lease.switched_self hsealed, he]
    simp only [hsealed, Entry.put, EntryEvent.unchanged, ← he]
  | some x =>
    cases x with
    | config c => simp only [he, hsealed, Lease.switched, Lease.sealedConfig, Option.getD_some]
    | retirement => exact absurd hsealed hs

theorem applyDelta_retires (he : e.lease = some l) (hs : l.sealed = some .retirement) (hm : l.mark = some ⟨cause, .sealed⟩) :
    applyDelta e = e.free cause.byHost := by
  simp [applyDelta, he, hs, hm]

/-- A delta stands for every sealed change: the set's entries and the others take the same event (R83). -/
theorem applyEntry_delta (h : ∀ l, e.lease = some l → l.sealed ≠ none → set.namesIndex i = true) :
    applyEntry set i e = (applyDelta e).andThen settleEntry := by
  unfold applyEntry
  split
  · rfl
  · next hno =>
    have hsame : applyDelta e = .unchanged e := by
      cases he : e.lease with
      | none => simp only [applyDelta, he]
      | some l =>
        have hs : l.sealed = none := not_not.1 fun hne => hno (h l he hne)
        simp only [applyDelta, he, hs]
    rw [hsame]

theorem applyEntry_free (h : e.lease = none) : applyEntry set i e = .unchanged e := by
  rw [applyEntry_delta fun l hl => by rw [h] at hl; cases hl]
  simp [applyDelta, settleEntry, h, EntryEvent.andThen, EntryEvent.unchanged]

theorem applyEntry_retires (hn : ∀ l, e.lease = some l → l.sealed ≠ none → set.namesIndex i = true) (he : e.lease = some l)
    (hs : l.sealed = some .retirement) (hm : l.mark = some ⟨cause, .sealed⟩) : applyEntry set i e = e.free cause.byHost := by
  rw [applyEntry_delta hn, applyDelta_retires he hs hm]
  simp [settleEntry, EntryEvent.andThen, EntryEvent.unchanged, Entry.free, Entry.freed]

theorem applyEntry_settles (hn : ∀ l, e.lease = some l → l.sealed ≠ none → set.namesIndex i = true) (he : e.lease = some l)
    (hs : l.sealed ≠ some .retirement) : applyEntry set i e = settleEntry ⟨e.generation, some l.switched⟩ := by
  rw [applyEntry_delta hn, applyDelta_applies he hs]
  rfl

theorem settleEntry_frees (he : e.lease = some l) (hm : l.mark = some ⟨cause, .staged⟩) (h : l.NothingInFlight) :
    settleEntry e = e.free cause.byHost := by
  simp only [settleEntry, he, hm, if_pos (Lease.retiresAtOnce_iff.2 h)]

theorem settleEntry_marked (he : e.lease = some l) (hm : l.mark = some ⟨cause, .staged⟩) (h : ¬l.NothingInFlight) :
    settleEntry e = .unchanged e := by
  simp only [settleEntry, he, hm, if_neg fun hc => h (Lease.retiresAtOnce_iff.1 hc)]

theorem settleEntry_takes {c : Configuration} (he : e.lease = some l) (hm : l.mark = none) (hc : l.staged = some c)
    (ha : l.active.placement = none) (hp : c.placement = none) : settleEntry e = e.put { l with active := c, staged := none } := by
  simp [settleEntry, he, hm, hc, ha, hp, Configuration.placed]

theorem settleEntry_waits (he : e.lease = some l) (hm : l.mark = none)
    (h : ∀ c, l.staged = some c → l.active.placement ≠ none ∨ c.placement ≠ none) : settleEntry e = .unchanged e := by
  unfold settleEntry
  cases hc : l.staged with
  | none => simp only [he, hm, hc]
  | some c =>
    simp only [he, hm, hc]
    refine if_neg fun ⟨ha, hp⟩ => ?_
    rcases h c hc with h | h
    · exact h (by simpa [Configuration.placed] using ha)
    · exact h (by simpa [Configuration.placed] using hp)

end

/-! ## The application of a set (R92, R93) -/

section
variable {s : State} {set : ChangeSet} {i : LeaseIndex} {ev : EntryEvent} {l : Lease} {cause : Cause}

/-- The device with the set applied, before the release check (R92, R93). -/
def State.switched (s : State) (set : ChangeSet) : State :=
  let t := s.onEveryEntry (applyEntry set)
  { t with publisher := { t.publisher with epoch := t.publisher.epoch + 1, stage := t.nextStage } }

theorem State.switched_entry (h : applyEntry set i s.leases[i] = ev) : (s.switched set).leases[i] = ev.entry :=
  (s.onEveryEntry_entry (applyEntry set) i).trans (congrArg EntryEvent.entry h)

theorem State.switched_item (h : applyEntry set i s.leases[i] = ev) :
    (s.switched set).attention.leases[i] = raiseItems s.attention.leases[i] s.leases[i].generation ev.raised :=
  (s.onEveryEntry_item (applyEntry set) i).trans (congrArg _ (congrArg EntryEvent.raised h))

theorem State.switched_unstaged (s : State) (set : ChangeSet) : s.onEveryEntry (applyEntry set) = { s with
    leases := (s.switched set).leases, attention := { s.attention with leases := (s.switched set).attention.leases } } :=
  State.onEveryEntry_unstaged (applyEntry_unstaged set)

theorem State.switched_frame (s : State) (set : ChangeSet) : s.switched set = { s with
    leases := (s.switched set).leases
    attention := { s.attention with leases := (s.switched set).attention.leases }
    publisher := { s.publisher with epoch := s.publisher.epoch + 1, stage := (s.switched set).publisher.stage } } := by
  exact congrArg (fun t : State => { t with publisher := { t.publisher with
    epoch := t.publisher.epoch + 1, stage := (s.switched set).publisher.stage } }) (s.switched_unstaged set)

theorem State.switched_stage (s : State) (set : ChangeSet) : (s.switched set).publisher.stage
    = if s.publisher.mode = .auto ∧ (s.switched set).anyStaged = true then .batching (sealFrameFrom s.chain.counter s.publisher.window) else .idle := by
  have h := s.switched_unstaged set
  have hp : (s.onEveryEntry (applyEntry set)).publisher = s.publisher := by rw [h]
  have hc : (s.onEveryEntry (applyEntry set)).chain = s.chain := State.onEveryEntry_chain ..
  show (s.onEveryEntry (applyEntry set)).nextStage = _
  rw [State.nextStage, hp, hc]
  rfl

/-- The lease of the entry is freed by the application, with RETIRED unless the host asked (R21). -/
theorem State.switched_freed (h : applyEntry set i s.leases[i] = s.leases[i].free cause.byHost) :
    (s.switched set).leases[i] = ⟨s.leases[i].generation + 1, none⟩
    ∧ (cause = .requested 0 → (s.switched set).attention.leases[i] = s.attention.leases[i])
    ∧ (cause ≠ .requested 0 → (s.switched set).attention.leases[i]
      = raiseItem s.attention.leases[i] s.leases[i].generation Reason.retired) := by
  refine ⟨State.switched_entry h, fun hc => ?_, fun hc => ?_⟩
  · rw [State.switched_item h, Entry.free, Cause.byHost_iff.2 hc]
    rfl
  · rw [State.switched_item h, Entry.free, Bool.eq_false_iff.2 fun hb => hc (Cause.byHost_iff.1 hb)]
    rfl

/-- The lease of the entry is replaced, and nothing is raised. -/
theorem State.switched_put {e : Entry} (h : applyEntry set i s.leases[i] = .unchanged e) :
    (s.switched set).leases[i] = e ∧ (s.switched set).attention.leases[i] = s.attention.leases[i] :=
  ⟨State.switched_entry h, State.switched_item h⟩

end

/-- Settles O37: the application of the set entry by entry: the delta, then what is left with nothing placed. -/
theorem setApplicationSwitchesTheLayout : Obligations.SetApplicationSwitchesTheLayout := by
  unfold Obligations.SetApplicationSwitchesTheLayout
  intro s set f hf hst
  refine ⟨fun hne => ?_, fun heq => ⟨s.switched set, ?_, s.switched_frame set, fun ⟨hm, hany⟩ => ?_, fun hno => ?_, fun i hl => ?_, fun i l hl hn => ?_⟩⟩
  · have hdue : s.applicationDue = false := by simp [State.applicationDue, hst, hne]
    rw [exec_setApplication, State.takeApplication_idle hdue]
  · rw [exec_setApplication, State.takeApplication_due hf (heq ▸ hst)]
    rfl
  · rw [s.switched_stage set, if_pos ⟨hm, State.anyStaged_iff.2 hany⟩, heq]
    rfl
  · rw [s.switched_stage set, if_neg fun hc => hno ⟨hc.1, State.anyStaged_iff.1 hc.2⟩]
  · have hl' : s.leases[i].lease = none := hl
    exact State.switched_put (applyEntry_free hl')
  · have he : s.leases[i].lease = some l := hl
    have hn' : ∀ m, s.leases[i].lease = some m → m.sealed ≠ none → set.namesIndex i = true := fun m hm => by
      cases he.symm.trans hm
      exact hn
    refine ⟨fun cause hs hm => State.switched_freed (applyEntry_retires hn' he hs hm), fun hs => ?_⟩
    have hsettle := applyEntry_settles hn' he hs
    refine ⟨fun cause hm hnow hstaged => ?_, fun cause hm hplaced => ?_, fun c hm hc hnow hp => ?_, fun hm hplaced => ?_⟩
    · exact State.switched_freed (hsettle.trans (settleEntry_frees (l := l.switched) rfl hm ⟨hnow, rfl, hstaged⟩))
    · refine State.switched_put (hsettle.trans (settleEntry_marked (l := l.switched) rfl hm fun hnone => ?_))
      rcases hplaced with h | ⟨c, hc, h⟩
      · exact h hnone.1
      · exact h (hnone.2.2 c hc)
    · exact State.switched_put (e := ⟨_, some { l.switched with active := c, staged := none }⟩)
        (hsettle.trans (settleEntry_takes (l := l.switched) rfl hm hc hnow hp))
    · exact State.switched_put (hsettle.trans (settleEntry_waits (l := l.switched) rfl hm hplaced))

end Sys2Proof.Machine
end

section
/-! PROOFS. The loss of a member (R88, R123 to R127): the cascade part by part, and the cleanup entry by entry. -/

namespace Sys2Proof.Machine

/-! ## The publisher after events on entries (R76) -/

section
variable (s : State) (f : LeaseIndex → Entry → EntryEvent)

/-- Some entry's event stages a change. -/
def State.Stages : Prop := ∃ i, (f i s.leases[i]).staged = true

theorem State.onEveryEntry_frame : s.onEveryEntry f = { s with
    leases := (s.onEveryEntry f).leases
    attention := { s.attention with leases := (s.onEveryEntry f).attention.leases }
    publisher := (s.onEveryEntry f).publisher } := by
  unfold State.onEveryEntry
  dsimp only
  split
  · unfold State.noteStaged
    split <;> rfl
  · rfl

theorem State.noteStaged_publisher_congr {s t : State} (hp : t.publisher = s.publisher) (hc : t.chain = s.chain) :
    t.noteStaged.publisher = s.noteStaged.publisher := by
  unfold State.noteStaged
  rw [hp, hc]
  split <;> simp [hp]

theorem State.onEveryEntry_staging {s : State} {f : LeaseIndex → Entry → EntryEvent} (h : s.Stages f) :
    (s.onEveryEntry f).publisher = s.noteStaged.publisher := by
  obtain ⟨i, hi⟩ := h
  have hany : (allLeases.any fun i => (f i s.leases[i]).staged) = true := List.any_eq_true.2 ⟨i, List.mem_finRange i, hi⟩
  unfold State.onEveryEntry
  simp only [hany, if_true]
  exact State.noteStaged_publisher_congr rfl rfl

theorem State.onEveryEntry_quiet {s : State} {f : LeaseIndex → Entry → EntryEvent} (h : ¬s.Stages f) :
    (s.onEveryEntry f).publisher = s.publisher := by
  have hany : (allLeases.any fun i => (f i s.leases[i]).staged) = false := by
    simpa [State.Stages, allLeases] using h
  unfold State.onEveryEntry
  simp only [hany, Bool.false_eq_true, if_false]

end

/-! ## The cascade (R88, R124, R125) -/

section
variable (s : State) (k : Position) {p : Position}

theorem State.changeNotices_frame (f : List Notice → List Notice) : s.changeNotices f
    = { s with publisher := { s.publisher with stage := (s.changeNotices f).publisher.stage } } := by
  unfold State.changeNotices
  split <;> rfl

theorem State.cascade_frame : s.cascade k = { s with
    engine := { s.engine with queue := (s.cascade k).engine.queue }
    members := { s.members with records := (s.cascade k).members.records }
    chain := { s.chain with delivery := (s.cascade k).chain.delivery }
    publisher := { s.publisher with stage := (s.cascade k).publisher.stage }
    attention := { s.attention with device := (s.cascade k).attention.device, members := (s.cascade k).attention.members } } := by
  conv_lhs => rw [State.cascade, State.changeNotices_frame]
  rw [s.cascade_queue, s.cascade_delivery]
  simp [State.cascade]

theorem State.cascade_device : (s.cascade k).attention.device
    = if k = 1 then s.attention.device ||| Reason.linkLost else s.attention.device := by simp [State.cascade]

theorem State.cascade_item (h0 : p ≠ 0) : (s.cascade k).attention.members[memberIndex p]
    = if s.swept k p = true then s.attention.members[memberIndex p] ||| (s.member p).sweepReason else s.attention.members[memberIndex p] := by
  simp [State.cascade, State.sweptItems, positionAt_memberIndex h0, State.member, h0]

theorem State.cascade_lease_items : (s.cascade k).attention.leases = s.attention.leases := by simp [State.cascade]

theorem State.swept_iff_Swept {s : State} {k : Position} : s.swept k p = true ↔ s.Swept k p := State.swept_iff

/-- A loss keeps the notices that are ACKED, and those of the positions that it does not sweep (R88). -/
def State.keptNotices (s : State) (k : Position) (ns : List Notice) : List Notice := ns.filter fun n => n.acked || !s.swept k n.position

theorem State.mem_keptNotices {ns : List Notice} {n : Notice} : n ∈ s.keptNotices k ns ↔ n ∈ ns ∧ (n.acked = true ∨ ¬s.Swept k n.position) := by
  simp [State.keptNotices, ← State.swept_iff_Swept]

/-- The part of a cascade that comes before the notices. -/
def State.sweptState (s : State) (k : Position) : State := { s with
  members := { s.members with records := s.sweptRecords k }
  engine := { s.engine with queue := s.engine.queue.filter fun e => !s.swept k e.position }
  chain := { s.chain with delivery := withoutDelivery s.chain.delivery (s.swept k) }
  attention := { s.attention with
    device := if k = 1 then s.attention.device ||| Reason.linkLost else s.attention.device, members := s.sweptItems k } }

theorem State.cascade_eq : s.cascade k = (s.sweptState k).changeNotices (s.keptNotices k) := rfl

theorem State.cascade_notifying {set : ChangeSet} (hst : s.publisher.stage = .notifying set) (h : ∃ n ∈ s.keptNotices k set.notices, n.acked = false) :
    (s.cascade k).publisher.stage = .notifying { set with notices := s.keptNotices k set.notices } := by
  rw [s.cascade_eq, State.changeNotices_open (s := s.sweptState k) hst h]
  rfl

theorem State.cascade_told {set : ChangeSet} {lead : Nat} (hst : s.publisher.stage = .notifying set)
    (h : ∀ n ∈ s.keptNotices k set.notices, n.acked = true) (hl : s.chain.lead = some lead) : (s.cascade k).publisher.stage
      = .switching { set with notices := s.keptNotices k set.notices } (s.chain.counter + BitVec.ofNat 32 lead) := by
  rw [s.cascade_eq, State.changeNotices_told (s := s.sweptState k) hst h hl]
  rfl

theorem State.cascade_switching {set : ChangeSet} {f : FrameNumber} (hst : s.publisher.stage = .switching set f) :
    (s.cascade k).publisher.stage = .switching { set with notices := s.keptNotices k set.notices } f := by
  have hst' : (s.sweptState k).publisher.stage = .switching set f := hst
  rw [s.cascade_eq, State.changeNotices]
  simp only [hst']
  rfl

theorem State.cascade_set? : (s.cascade k).publisher.stage.set?
    = s.publisher.stage.set?.map fun set => { set with notices := s.keptNotices k set.notices } := by
  rw [s.cascade_eq, State.changeNotices_set?]
  rfl

theorem State.cascade_no_set {s : State} (h : s.publisher.stage.set? = none) : (s.cascade k).publisher.stage = s.publisher.stage := by
  have hno {set : ChangeSet} (hset : s.publisher.stage.set? = some set) : False := by
    rw [h] at hset
    cases hset
  rcases (s.sweptState k).changeNotices_stage (s.keptNotices k) with ⟨set, hst, -⟩ | ⟨set, hst, -⟩ | ⟨set, f, hst, -⟩ | ⟨-, hst⟩
  · exact (hno (congrArg PublisherStage.set? hst)).elim
  · exact (hno (congrArg PublisherStage.set? hst)).elim
  · exact (hno (congrArg PublisherStage.set? hst)).elim
  · exact hst

end

/-! ## The cleanup of one entry (R126, R127) -/

section
variable {lost : Position → Bool} {e : Entry} {l : Lease}

/-- The lease is orphaned: its source is LOST and no retirement of it stands but by expiry (R126). -/
def Lease.Orphaned (lost : Position → Bool) (l : Lease) : Prop :=
  lost l.source = true ∧ (l.mark = none ∨ l.mark = some ⟨.expired, .staged⟩)

/-- The lease is freed by its orphaning (R16, R126). -/
def Lease.FreedByLoss (lost : Position → Bool) (l : Lease) : Prop := lost l.source = true ∧ l.mark = none ∧ l.NothingInFlight

/-- A LOST listener is removed from the lease's latest configuration (R127). -/
def Lease.Cleaned (lost : Position → Bool) (l : Lease) : Prop :=
  l.state ≠ .going ∧ ∃ p, lost p = true ∧ hasListener l.latest.listeners p = true

theorem orphanEntry_frees (he : e.lease = some l) (h : l.FreedByLoss lost) :
    orphanEntry lost e = ⟨e.freed, [Reason.orphaned, Reason.retired], false⟩ := by
  obtain ⟨hl, hm, hn⟩ := h
  have hat := Lease.retiresAtOnce_iff.2 hn
  simp only [orphanEntry, he, hl, hm, if_true, retireLive, hat]
  rfl

theorem orphanEntry_orphans (he : e.lease = some l) (ho : l.Orphaned lost) (h : ¬l.FreedByLoss lost) : orphanEntry lost e
    = ⟨⟨e.generation, some { l with mark := some ⟨.orphaned, .staged⟩ }⟩, [Reason.orphaned], l.mark.isNone⟩ := by
  obtain ⟨hl, hm | hm⟩ := ho
  · have hat : ¬l.retiresAtOnce = true := fun hc => h ⟨hl, hm, Lease.retiresAtOnce_iff.1 hc⟩
    simp only [orphanEntry, he, hl, hm, if_true, retireLive, if_neg hat]
    rfl
  · simp only [orphanEntry, he, hl, hm, if_true]
    rfl

theorem orphanEntry_stays (he : e.lease = some l) (h : ¬l.Orphaned lost) : orphanEntry lost e = .unchanged e := by
  unfold orphanEntry
  simp only [he]
  split
  · next hl =>
    split
    · next hm => exact absurd ⟨hl, .inl hm⟩ h
    · next hm => exact absurd ⟨hl, .inr hm⟩ h
    · rfl
  · rfl

theorem cleanEntry_cleans (he : e.lease = some l) (h0 : lost 0 = false) (h : l.Cleaned lost) : cleanEntry lost e
    = e.stage { l with staged := some (l.latest.shrunkTo (withoutLost lost l.latest.listeners)) } := by
  obtain ⟨hst, p, hp, hh⟩ := h
  have hpos : p ≠ 0 := fun hc => by rw [hc, h0] at hp; cases hp
  have hany : (memberPositions.any fun p => lost p && hasListener l.latest.listeners p) = true :=
    List.any_eq_true.2 ⟨p, mem_memberPositions.2 hpos, by rw [hp, hh]; rfl⟩
  simp only [cleanEntry, he]
  exact if_pos ⟨hst, hany⟩

theorem cleanEntry_stays (he : e.lease = some l) (h : ¬l.Cleaned lost) : cleanEntry lost e = .unchanged e := by
  simp only [cleanEntry, he]
  refine if_neg fun ⟨hst, hany⟩ => h ⟨hst, ?_⟩
  obtain ⟨p, -, hp⟩ := List.any_eq_true.1 hany
  rw [Bool.and_eq_true] at hp
  exact ⟨p, hp⟩

theorem cleanEntry_free (he : e.lease = none) : cleanEntry lost e = .unchanged e := by simp only [cleanEntry, he]

theorem cleanupEntry_free (he : e.lease = none) : cleanupEntry lost e = .unchanged e := by
  simp only [cleanupEntry, orphanEntry, he, EntryEvent.andThen, EntryEvent.unchanged, cleanEntry_free he, List.append_nil, Bool.or_self]

theorem cleanupEntry_frees (he : e.lease = some l) (h : l.FreedByLoss lost) :
    cleanupEntry lost e = ⟨e.freed, [Reason.orphaned, Reason.retired], false⟩ := by
  rw [cleanupEntry, orphanEntry_frees he h, EntryEvent.andThen]
  simp only [cleanEntry_free (e := e.freed) rfl]
  rfl

/-- The orphaning changes the mark alone, and by it neither the latest configuration nor whether the lease is GOING. -/
theorem Lease.cleaned_orphaned (ho : l.Orphaned lost) :
    Lease.Cleaned lost { l with mark := some ⟨.orphaned, .staged⟩ } ↔ l.Cleaned lost := by
  have hst : l.state ≠ .going := by
    rw [ne_eq, Lease.state_going_iff]
    rintro ⟨cause, hm⟩
    rcases ho.2 with h | h <;> rw [h] at hm <;> cases hm
  have hst' : Lease.state { l with mark := some ⟨.orphaned, .staged⟩ } ≠ .going := fun hc => by
    obtain ⟨cause, hm⟩ := Lease.state_going_iff.1 hc
    cases hm
  exact and_congr (iff_of_true hst' hst) Iff.rfl

open Classical in
/-- The lease after the cleanup of a loss that does not free it (R126, R127). -/
noncomputable def Lease.cleanedUp (lost : Position → Bool) (l : Lease) : Lease := { l with
  mark := if l.Orphaned lost then some ⟨.orphaned, .staged⟩ else l.mark
  staged := if l.Cleaned lost then some (l.latest.shrunkTo (withoutLost lost l.latest.listeners)) else l.staged }

theorem Lease.cleanedUp_marked (h : l.Orphaned lost) : (l.cleanedUp lost).mark = some ⟨.orphaned, .staged⟩ := if_pos h
theorem Lease.cleanedUp_mark (h : ¬l.Orphaned lost) : (l.cleanedUp lost).mark = l.mark := if_neg h
theorem Lease.cleanedUp_cleaned (h : l.Cleaned lost) :
    (l.cleanedUp lost).staged = some (l.latest.shrunkTo (withoutLost lost l.latest.listeners)) := if_pos h
theorem Lease.cleanedUp_staged (h : ¬l.Cleaned lost) : (l.cleanedUp lost).staged = l.staged := if_neg h

open Classical in
theorem cleanupEntry_keeps (he : e.lease = some l) (h0 : lost 0 = false) (h : ¬l.FreedByLoss lost) : cleanupEntry lost e
    = ⟨⟨e.generation, some (l.cleanedUp lost)⟩, if l.Orphaned lost then [Reason.orphaned] else [],
        decide ((l.Orphaned lost ∧ l.mark = none) ∨ l.Cleaned lost)⟩ := by
  have hself : e = ⟨e.generation, some l⟩ := by rw [← he]
  by_cases ho : l.Orphaned lost
  · rw [cleanupEntry, orphanEntry_orphans he ho h, EntryEvent.andThen]
    by_cases hc : l.Cleaned lost
    · rw [cleanEntry_cleans rfl h0 ((Lease.cleaned_orphaned ho).2 hc)]
      simp only [Lease.cleanedUp, if_pos ho, hc, or_true, decide_true, Entry.stage, Bool.or_true, List.append_nil]
      rfl
    · rw [cleanEntry_stays rfl fun hc' => hc ((Lease.cleaned_orphaned ho).1 hc')]
      have hflag : l.mark.isNone = decide (l.mark = none) := by cases l.mark <;> simp
      simp only [Lease.cleanedUp, EntryEvent.unchanged, ho, hc, true_and, or_false, Bool.or_false, List.append_nil, hflag]
      congr
  · rw [cleanupEntry, orphanEntry_stays he ho, EntryEvent.andThen]
    by_cases hc : l.Cleaned lost
    · simp only [EntryEvent.unchanged, cleanEntry_cleans he h0 hc, Lease.cleanedUp, if_neg ho, hc, or_true, decide_true, Entry.stage,
        Bool.or_true, List.append_nil]
      rfl
    · simp only [EntryEvent.unchanged, cleanEntry_stays he hc, Lease.cleanedUp, ho, hc, false_and, or_self, decide_false,
        List.append_nil]
      exact congrArg (fun e => EntryEvent.mk e [] false) hself

end

/-! ## The cleanup of every entry -/

section
variable {s : State} {i : LeaseIndex} {l l' : Lease}

/-- The device after the cleanup of a loss, before the release check (R126, R127). -/
def State.cleanedUp (s : State) : State := s.onEveryEntry fun _ e => cleanupEntry s.isLost e

theorem State.loseMember_eq (s : State) (k : Position) : s.loseMember k = (s.cascade k).cleanedUp.releaseLost := rfl

theorem State.isLost_iff {p : Position} : s.isLost p = true ↔ (s.member p).state = .lost := by simp [State.isLost]

theorem State.isLost_zero (s : State) : s.isLost 0 = false := by simp [State.isLost, Member.vacant]

theorem State.cleanedUp_entry (s : State) (i : LeaseIndex) : s.cleanedUp.leases[i] = (cleanupEntry s.isLost s.leases[i]).entry :=
  s.onEveryEntry_entry (fun _ e => cleanupEntry s.isLost e) i

theorem State.cleanedUp_item (s : State) (i : LeaseIndex) : s.cleanedUp.attention.leases[i]
    = raiseItems s.attention.leases[i] s.leases[i].generation (cleanupEntry s.isLost s.leases[i]).raised :=
  s.onEveryEntry_item (fun _ e => cleanupEntry s.isLost e) i

theorem State.cleanedUp_free (h : s.lease? i = none) : s.cleanedUp.leases[i] = s.leases[i]
    ∧ s.cleanedUp.attention.leases[i] = s.attention.leases[i] := by
  have he : s.leases[i].lease = none := h
  rw [s.cleanedUp_entry, s.cleanedUp_item, cleanupEntry_free he]
  exact ⟨rfl, rfl⟩

theorem State.cleanedUp_frees (hl : s.lease? i = some l) (h : l.FreedByLoss s.isLost) :
    s.cleanedUp.leases[i] = ⟨s.leases[i].generation + 1, none⟩ ∧ s.cleanedUp.attention.leases[i]
      = raiseItem (raiseItem s.attention.leases[i] s.leases[i].generation Reason.orphaned) s.leases[i].generation Reason.retired := by
  have he : s.leases[i].lease = some l := hl
  rw [s.cleanedUp_entry, s.cleanedUp_item, cleanupEntry_frees he h]
  exact ⟨rfl, rfl⟩

theorem State.cleanedUp_keeps (hl : s.lease? i = some l) (h : ¬l.FreedByLoss s.isLost) :
    s.cleanedUp.leases[i] = ⟨s.leases[i].generation, some (l.cleanedUp s.isLost)⟩
    ∧ (l.Orphaned s.isLost → s.cleanedUp.attention.leases[i] = raiseItem s.attention.leases[i] s.leases[i].generation Reason.orphaned)
    ∧ (¬l.Orphaned s.isLost → s.cleanedUp.attention.leases[i] = s.attention.leases[i]) := by
  have he : s.leases[i].lease = some l := hl
  rw [s.cleanedUp_entry, s.cleanedUp_item, cleanupEntry_keeps he s.isLost_zero h]
  refine ⟨rfl, fun ho => ?_, fun ho => ?_⟩
  · rw [if_pos ho]
    rfl
  · rw [if_neg ho]
    rfl

/-- A lease that the cleanup keeps. -/
theorem State.cleanedUp_lease (hl : s.lease? i = some l) (hl' : s.cleanedUp.lease? i = some l') :
    ¬l.FreedByLoss s.isLost ∧ l' = l.cleanedUp s.isLost := by
  have hn : ¬l.FreedByLoss s.isLost := fun h => by
    rw [State.lease?, (State.cleanedUp_frees hl h).1] at hl'
    cases hl'
  rw [State.lease?, (State.cleanedUp_keeps hl hn).1] at hl'
  exact ⟨hn, (Option.some.inj hl').symm⟩

/-- The latest configuration of a cleaned lease still named the LOST listener. -/
theorem Lease.cleaned_staged {lost : Position → Bool} (h0 : lost 0 = false) (h : l.Cleaned lost) : (l.cleanedUp lost).staged ≠ l.staged := by
  obtain ⟨-, p, hp, hh⟩ := id h
  have hpos : p ≠ 0 := fun hc => by rw [hc, h0] at hp; cases hp
  rw [Lease.cleanedUp_cleaned h]
  intro hc
  have hlatest : l.latest = l.latest.shrunkTo (withoutLost lost l.latest.listeners) := by
    conv_lhs => rw [Lease.latest, ← hc]
  have hgone : hasListener l.latest.listeners p = hasListener (withoutLost lost l.latest.listeners) p :=
    congrArg (fun c : Configuration => hasListener c.listeners p) hlatest
  rw [hasListener_withoutLost, hh] at hgone
  simp [hpos, hp] at hgone

/-- The cleanup stages a change exactly on the leases that it marks anew or stages without a listener. -/
theorem State.cleanedUp_stages : s.Stages (fun _ e => cleanupEntry s.isLost e)
    ↔ ∃ i l, s.lease? i = some l ∧ ¬l.FreedByLoss s.isLost ∧ ((l.Orphaned s.isLost ∧ l.mark = none) ∨ l.Cleaned s.isLost) := by
  constructor
  · rintro ⟨i, hi⟩
    dsimp only at hi
    cases hl : s.lease? i with
    | none =>
      rw [cleanupEntry_free (show s.leases[i].lease = none from hl)] at hi
      cases hi
    | some l =>
      have he : s.leases[i].lease = some l := hl
      by_cases hf : l.FreedByLoss s.isLost
      · rw [cleanupEntry_frees he hf] at hi
        cases hi
      · rw [cleanupEntry_keeps he s.isLost_zero hf] at hi
        exact ⟨i, l, hl, hf, by simpa using hi⟩
  · rintro ⟨i, l, hl, hf, h⟩
    refine ⟨i, ?_⟩
    dsimp only
    rw [cleanupEntry_keeps (show s.leases[i].lease = some l from hl) s.isLost_zero hf]
    simpa using h

theorem State.cleanedUp_noted (h : ∃ i l l', s.lease? i = some l ∧ s.cleanedUp.lease? i = some l'
    ∧ ((l.mark = none ∧ l'.mark ≠ none) ∨ l'.staged ≠ l.staged)) : s.cleanedUp.publisher = s.noteStaged.publisher := by
  obtain ⟨i, l, l', hl, hl', h⟩ := h
  obtain ⟨hn, rfl⟩ := State.cleanedUp_lease hl hl'
  refine State.onEveryEntry_staging (State.cleanedUp_stages.2 ⟨i, l, hl, hn, ?_⟩)
  rcases h with ⟨hm, hm'⟩ | hst
  · exact .inl ⟨not_not.1 fun ho => hm' ((Lease.cleanedUp_mark ho).trans hm), hm⟩
  · exact .inr (not_not.1 fun hc => hst (Lease.cleanedUp_staged hc))

theorem State.cleanedUp_unnoted (h : ∀ i l l', s.lease? i = some l → s.cleanedUp.lease? i = some l' →
    (l.mark = none → l'.mark = none) ∧ l'.staged = l.staged) : s.cleanedUp.publisher = s.publisher := by
  refine State.onEveryEntry_quiet fun hst => ?_
  obtain ⟨i, l, hl, hn, hwhy⟩ := State.cleanedUp_stages.1 hst
  obtain ⟨hmark, hstaged⟩ := h i l _ hl (by rw [State.lease?, (State.cleanedUp_keeps hl hn).1])
  rcases hwhy with ⟨ho, hm⟩ | hc
  · cases (Lease.cleanedUp_marked ho).symm.trans (hmark hm)
  · exact Lease.cleaned_staged s.isLost_zero hc hstaged

end

/-- Settles O44: the cascade part by part, and the cleanup of each lease by what the loss has taken from it. -/
theorem lossSweepsAndCleans : Obligations.LossSweepsAndCleans := by
  unfold Obligations.LossSweepsAndCleans
  intro s k _
  refine ⟨s.cascade_frame k, fun p h0 => ⟨fun hsw hst => ?_, fun hsw hst => ?_, fun hsw => ?_⟩, s.cascade_device k, fun e => ?_, ?_,
    fun p => ⟨?_, ?_⟩, ?_, fun set hset => ⟨{ set with notices := s.keptNotices k set.notices }, ?_, rfl, List.filter_sublist,
      fun n => s.mem_keptNotices k, fun f => s.cascade_switching k, s.cascade_notifying k, fun hst hall lead => s.cascade_told k hst hall⟩,
    State.cascade_no_set k, (s.cascade k).cleanedUp, s.loseMember_eq k, (s.cascade k).onEveryEntry_frame _, fun i hl => ?_, fun i l hl => ?_, ?_, ?_⟩
  · rw [s.cascade_member, s.cascade_item k h0, if_pos (State.swept_iff_Swept.2 hsw), if_pos (State.swept_iff_Swept.2 hsw), Member.sweep,
      Member.sweepReason, hst]
    exact ⟨rfl, rfl⟩
  · rw [s.cascade_member, s.cascade_item k h0, if_pos (State.swept_iff_Swept.2 hsw), if_pos (State.swept_iff_Swept.2 hsw), Member.sweep,
      Member.sweepReason, hst]
    exact ⟨rfl, rfl⟩
  · rw [s.cascade_member, s.cascade_item k h0, if_neg fun h => hsw (State.swept_iff_Swept.1 h), if_neg fun h => hsw (State.swept_iff_Swept.1 h)]
    exact ⟨rfl, rfl⟩
  · simp [s.cascade_queue, ← State.swept_iff_Swept]
  · rw [s.cascade_queue]
    exact List.filter_sublist
  · simp [s.cascade_delivery, withoutDelivery, ← State.swept_iff_Swept]
  · simp [s.cascade_delivery, withoutDelivery, ← State.swept_iff_Swept]
  · rw [s.cascade_delivery]
    exact List.filter_sublist
  · rw [s.cascade_set?, hset]
    rfl
  · have h := State.cleanedUp_free (s := s.cascade k) (i := i) (by rwa [State.cascade_lease])
    rwa [State.cascade_leases, State.cascade_lease_items] at h
  · have hu : (s.cascade k).lease? i = some l := by rwa [State.cascade_lease]
    have hlost {p : Position} : (s.cascade k).isLost p = true ↔ ((s.cascade k).member p).state = .lost := State.isLost_iff
    have hfrees := State.cleanedUp_frees hu
    have hkeeps := State.cleanedUp_keeps hu
    have horphans := @Lease.cleanedUp_marked (s.cascade k).isLost l
    have hmark := @Lease.cleanedUp_mark (s.cascade k).isLost l
    have hcleans := @Lease.cleanedUp_cleaned (s.cascade k).isLost l
    have hstaged := @Lease.cleanedUp_staged (s.cascade k).isLost l
    simp only [Lease.FreedByLoss, Lease.Orphaned, Lease.Cleaned, hlost, State.cascade_leases, State.cascade_lease_items] at hfrees hkeeps horphans hmark hcleans hstaged
    refine ⟨fun hsrc hm hn => hfrees ⟨hsrc, hm, hn⟩, fun hn => ?_⟩
    obtain ⟨hentry, ho, hno⟩ := hkeeps hn
    refine ⟨_, hentry, rfl, fun h => ⟨horphans h, ho h⟩, fun h => ⟨hmark h, hno h⟩, hstaged, fun h => ⟨_, hcleans h, rfl, rfl, fun p => ?_,
      fun hne => if_neg hne, fun he => if_pos he⟩⟩
    have hpos : ((s.cascade k).member p).state = .lost → p ≠ 0 := by
      rintro h rfl
      rw [State.member_zero] at h
      cases h
    rw [Configuration.shrunkTo, hasListener_withoutLost, Bool.and_eq_true, Bool.not_eq_true', Bool.and_eq_false_iff, decide_eq_false_iff_not,
      ← Bool.not_eq_true, hlost]
    exact and_congr Iff.rfl ⟨fun h hl => h.elim (fun h0 => h0 (hpos hl)) fun h => h hl, .inr⟩
  · rintro ⟨i, l, l', hl, h⟩
    exact State.cleanedUp_noted ⟨i, l, l', by rwa [State.cascade_lease], h⟩
  · exact fun h => State.cleanedUp_unnoted fun i l l' hl => h i l l' (by rwa [State.cascade_lease] at hl)

end Sys2Proof.Machine
end

section
/-! PROOFS. What is due in a frame is taken before what follows it (R133, R136, R138, R141; log entry 3): the expiries one after
the other, and the parts of the frame, each of which leaves nothing of the ones before it. -/

namespace Sys2Proof.Machine

/-! ## Events on one entry after another -/

section
variable {s t u : State} {f g : LeaseIndex → Entry → EntryEvent} {p i : LeaseIndex} {ev : EntryEvent}

theorem State.onEveryEntry_congr (h : ∀ i, f i s.leases[i] = g i s.leases[i]) : s.onEveryEntry f = s.onEveryEntry g := by
  unfold State.onEveryEntry
  simp only [h]

theorem State.onEntry_frame (s : State) (i : LeaseIndex) (ev : EntryEvent) : s.onEntry i ev = { s with
    leases := (s.onEntry i ev).leases
    attention := { s.attention with leases := (s.onEntry i ev).attention.leases }
    publisher := (s.onEntry i ev).publisher } := by
  unfold State.onEntry
  dsimp only
  split
  · unfold State.noteStaged
    split <;> rfl
  · rfl

theorem State.onEntry_item_self (s : State) (i : LeaseIndex) (ev : EntryEvent) :
    (s.onEntry i ev).attention.leases[i] = raiseItems s.attention.leases[i] s.leases[i].generation ev.raised := by
  simp [State.itemAfter]

theorem State.onEntry_item_of_ne (h : i ≠ p) : (s.onEntry p ev).attention.leases[i] = s.attention.leases[i] := by
  have hne : p.val ≠ i.val := fun hc => h (Fin.ext hc.symm)
  simp [hne]

theorem State.onEntry_publisher (s : State) (i : LeaseIndex) (ev : EntryEvent) :
    (s.onEntry i ev).publisher = if ev.staged then s.noteStaged.publisher else s.publisher := by
  unfold State.onEntry
  dsimp only
  split
  · exact State.noteStaged_publisher_congr rfl rfl
  · rfl

/-- A publisher that has heard of a staged change hears nothing new by a second one (R76). -/
theorem State.noteStaged_again (hp : t.publisher = s.noteStaged.publisher) (hc : t.chain = s.chain) :
    t.noteStaged.publisher = s.noteStaged.publisher := by
  by_cases h : s.publisher.mode = .auto ∧ s.publisher.stage = .idle ∧ s.chain.state = .running
  · have hno : ¬(t.publisher.mode = .auto ∧ t.publisher.stage = .idle ∧ t.chain.state = .running) := by
      rw [hp, State.noteStaged_opens h.1 h.2.1 h.2.2]
      exact fun hcon => by cases hcon.2.1
    rw [State.noteStaged_stays hno, hp]
  · rw [State.noteStaged_stays h] at hp ⊢
    exact (State.noteStaged_publisher_congr hp hc).trans (congrArg _ (State.noteStaged_stays h))

/-- Two states that differ from a third in entries, their items and the publisher at most, and agree there. -/
theorem State.eq_of_parts
    (ht : t = { s with leases := t.leases, attention := { s.attention with leases := t.attention.leases }, publisher := t.publisher })
    (hu : u = { s with leases := u.leases, attention := { s.attention with leases := u.attention.leases }, publisher := u.publisher })
    (hl : ∀ i : LeaseIndex, t.leases[i] = u.leases[i]) (ha : ∀ i : LeaseIndex, t.attention.leases[i] = u.attention.leases[i])
    (hp : t.publisher = u.publisher) : t = u := by
  have hleases : t.leases = u.leases := Vector.ext fun i hi => hl ⟨i, hi⟩
  have hitems : t.attention.leases = u.attention.leases := Vector.ext fun i hi => ha ⟨i, hi⟩
  rw [ht, hu, hleases, hitems, hp]

/-- An event on one entry, then events on others, are one event on every entry. -/
theorem State.onEntry_onEveryEntry (hp : ∀ e, f p e = .unchanged e) :
    (s.onEntry p ev).onEveryEntry f = s.onEveryEntry fun i e => if i = p then ev else f i e := by
  have hframe : (s.onEntry p ev).onEveryEntry f = { s with
      leases := ((s.onEntry p ev).onEveryEntry f).leases
      attention := { s.attention with leases := ((s.onEntry p ev).onEveryEntry f).attention.leases }
      publisher := ((s.onEntry p ev).onEveryEntry f).publisher } := by
    have h := (s.onEntry p ev).onEveryEntry_frame f
    generalize (s.onEntry p ev).onEveryEntry f = v at h ⊢
    rw [s.onEntry_frame p ev] at h
    exact h
  have hentry (i : LeaseIndex) : i ≠ p → (s.onEntry p ev).leases[i] = s.leases[i] := fun h => s.onEntry_entry_of_ne h ev
  refine State.eq_of_parts hframe (State.onEveryEntry_frame _ _) (fun i => ?_) (fun i => ?_) ?_
  · rw [State.onEveryEntry_entry, State.onEveryEntry_entry]
    rcases eq_or_ne i p with rfl | h
    · rw [hp, if_pos rfl, State.onEntry_entry_self]
      rfl
    · rw [if_neg h, hentry i h]
  · rw [State.onEveryEntry_item, State.onEveryEntry_item]
    rcases eq_or_ne i p with rfl | h
    · rw [hp, if_pos rfl, State.onEntry_item_self]
      rfl
    · rw [if_neg h, hentry i h, State.onEntry_item_of_ne h]
  · have hstages : s.Stages (fun i e => if i = p then ev else f i e) ↔ ev.staged = true ∨ (s.onEntry p ev).Stages f := by
      constructor
      · rintro ⟨i, hi⟩
        dsimp only at hi
        rcases eq_or_ne i p with rfl | h
        · rw [if_pos rfl] at hi
          exact .inl hi
        · rw [if_neg h] at hi
          exact .inr ⟨i, by rwa [hentry i h]⟩
      · rintro (h | ⟨i, hi⟩)
        · exact ⟨p, by dsimp only; rwa [if_pos rfl]⟩
        · have h : i ≠ p := fun h => by
            rw [h, hp] at hi
            cases hi
          refine ⟨i, ?_⟩
          dsimp only
          rwa [if_neg h, ← hentry i h]
    have hpub := s.onEntry_publisher p ev
    by_cases hf : (s.onEntry p ev).Stages f
    · rw [State.onEveryEntry_staging hf, State.onEveryEntry_staging (hstages.2 (.inr hf))]
      split at hpub
      · exact State.noteStaged_again hpub (State.onEntry_chain ..)
      · exact State.noteStaged_publisher_congr hpub (State.onEntry_chain ..)
    · rw [State.onEveryEntry_quiet hf, hpub]
      split
      · next hst => rw [State.onEveryEntry_staging (hstages.2 (.inl hst))]
      · next hst => rw [State.onEveryEntry_quiet fun hc => (hstages.1 hc).elim hst hf]

/-- The expiries of some entries, one after the other, are one event on every entry (R102). -/
theorem State.foldl_takeExpiry (hf : s.inFrame = true) {ps : List LeaseIndex} (hnodup : ps.Nodup) :
    ps.foldl State.takeExpiry s = s.onEveryEntry fun i e => if i ∈ ps then expireEntry s.chain.counter e else .unchanged e := by
  induction ps generalizing s with
  | nil => exact (State.onEveryEntry_unchanged fun i => if_neg List.not_mem_nil).symm
  | cons p ps ih =>
    obtain ⟨hp, hps⟩ := List.nodup_cons.1 hnodup
    have htake : s.takeExpiry p = s.onEntry p (expireEntry s.chain.counter s.leases[p]) := if_pos hf
    have hchain : (s.takeExpiry p).chain = s.chain := by rw [htake, State.onEntry_chain]
    rw [List.foldl_cons, ih (by rwa [State.inFrame, hchain]) hps, hchain, htake, State.onEntry_onEveryEntry fun e => if_neg hp]
    refine State.onEveryEntry_congr fun i => ?_
    rcases eq_or_ne i p with rfl | h
    · rw [if_pos rfl, if_pos List.mem_cons_self]
    · simp [h]

theorem State.foldl_takeExpiry_all (hf : s.inFrame = true) : allLeases.foldl State.takeExpiry s = s.takeExpiries := by
  have hnodup : allLeases.Nodup := List.nodup_finRange 128
  rw [State.foldl_takeExpiry hf hnodup, State.takeExpiries, if_pos hf]
  exact State.onEveryEntry_congr fun i => if_pos (List.mem_finRange i)

/-! ## Commands one after the other -/

theorem State.Runs.nil (s : State) : State.Runs [] s s := rfl

theorem State.Runs.cons {c : Instr} {cs : List Instr} (h : exec c s = .next t) (h' : State.Runs cs t u) : State.Runs (c :: cs) s u := ⟨t, h, h'⟩

theorem State.Runs.append {as bs : List Instr} (h : State.Runs as s t) (h' : State.Runs bs t u) : State.Runs (as ++ bs) s u := by
  induction as generalizing s with
  | nil =>
    cases h
    exact h'
  | cons c as ih =>
    obtain ⟨v, hv, h⟩ := h
    exact ⟨v, hv, ih h⟩

theorem State.runs_expiries (s : State) (ps : List LeaseIndex) : State.Runs (ps.map .expiry) s (ps.foldl State.takeExpiry s) := by
  induction ps generalizing s with
  | nil => rfl
  | cons p ps ih => exact ⟨s.takeExpiry p, exec_expiry p s, ih _⟩

end

/-! ## No part of a frame is due -/

/-- No lease's expiry is due but under a mark (R102). -/
def State.ExpiriesTaken (s : State) : Prop := ∀ i l, s.lease? i = some l → l.expiry = some s.chain.counter → l.mark ≠ none

/-- Neither an application nor a window's end is due in the frame (R77, R92). -/
structure PublisherStage.NotDue (st : PublisherStage) (n : FrameNumber) : Prop where
  application : ∀ set, st ≠ .switching set n
  window      : st ≠ .batching n

/-- The leases of the second device are of the first, with their expiry frames and their marks or new ones. -/
def State.KeepsExpiries (s t : State) : Prop := ∀ i l', t.lease? i = some l' →
  ∃ l, s.lease? i = some l ∧ l'.expiry = l.expiry ∧ (l.mark ≠ none → l'.mark ≠ none)

section
variable {s t : State} {st : PublisherStage} {n : FrameNumber} {p : Position}

theorem State.ExpiriesTaken.keeps (h : s.ExpiriesTaken) (hk : s.KeepsExpiries t) (hc : t.chain.counter = s.chain.counter) : t.ExpiriesTaken := by
  intro i l' hl' he
  obtain ⟨l, hl, hexp, hmark⟩ := hk i l' hl'
  exact hmark (h i l hl (by rw [← hexp, he, hc]))

theorem State.KeepsExpiries.of_leases (h : t.leases = s.leases) : s.KeepsExpiries t :=
  fun i l' hl' => ⟨l', by rwa [State.lease?, h] at hl', rfl, id⟩

theorem State.KeepsExpiries.trans {u : State} (h : s.KeepsExpiries t) (h' : t.KeepsExpiries u) : s.KeepsExpiries u := by
  intro i l' hl'
  obtain ⟨m, hm, hexp', hmark'⟩ := h' i l' hl'
  obtain ⟨l, hl, hexp, hmark⟩ := h i m hm
  exact ⟨l, hl, hexp'.trans hexp, fun hne => hmark' (hmark hne)⟩

theorem State.applicationDue_eq_false (h : ∀ set, s.publisher.stage ≠ .switching set s.chain.counter) : s.applicationDue = false := by
  unfold State.applicationDue
  cases hst : s.publisher.stage with
  | switching set f =>
    have hne : f ≠ s.chain.counter := fun hc => h set (hc ▸ hst)
    simp [hne]
  | _ => simp

theorem State.not_switching (hf : s.inFrame = true) (h : s.applicationDue = false) (set : ChangeSet) :
    s.publisher.stage ≠ .switching set s.chain.counter := fun hst => by
  rw [State.applicationDue, hf, hst] at h
  simp at h

theorem State.windowDue_eq_false (h : s.publisher.stage ≠ .batching s.chain.counter) : s.windowDue = false := by
  unfold State.windowDue
  cases hst : s.publisher.stage with
  | batching f =>
    have hne : f ≠ s.chain.counter := fun hc => h (hc ▸ hst)
    simp [hne]
  | _ => simp

theorem State.not_batching (hf : s.inFrame = true) (h : s.windowDue = false) : s.publisher.stage ≠ .batching s.chain.counter := fun hst => by
  rw [State.windowDue, hf, hst] at h
  simp at h

/-! ### Frames still to come (R76, R89) -/

theorem sealFrameFrom_ne (n : FrameNumber) (w : Byte) : sealFrameFrom n w ≠ n := by
  unfold sealFrameFrom
  bv_omega

theorem switchFrame_ne {lead : Nat} (h1 : 1 ≤ lead) (h64 : lead ≤ 64) (n : FrameNumber) : n + BitVec.ofNat 32 lead ≠ n := by
  bv_omega

/-- The switch lead of a running chain is of the range that CHAIN_START allows. -/
def State.LeadInRange (s : State) : Prop := ∃ lead, s.chain.lead = some lead ∧ 1 ≤ lead ∧ lead ≤ 64

theorem State.switchFrameNow_ne (h : s.LeadInRange) : s.switchFrameNow ≠ s.chain.counter := by
  obtain ⟨lead, hl, h1, h64⟩ := h
  rw [State.switchFrameNow, hl]
  exact switchFrame_ne h1 h64 _

theorem State.noteStaged_stage (s : State) : s.noteStaged.publisher.stage = s.publisher.stage
    ∨ s.noteStaged.publisher.stage = .batching (sealFrameFrom s.chain.counter s.publisher.window) := by
  unfold State.noteStaged
  split
  · exact .inr rfl
  · exact .inl rfl

theorem State.onEveryEntry_stage (s : State) (f : LeaseIndex → Entry → EntryEvent) :
    (s.onEveryEntry f).publisher.stage = s.publisher.stage
    ∨ (s.onEveryEntry f).publisher.stage = .batching (sealFrameFrom s.chain.counter s.publisher.window) := by
  by_cases h : s.Stages f
  · rw [State.onEveryEntry_staging h]
    exact s.noteStaged_stage
  · rw [State.onEveryEntry_quiet h]
    exact .inl rfl

/-! ## The start of the frame (R138, R141) -/

theorem State.takeApplication_chain (s : State) : s.takeApplication.chain = s.chain := by
  unfold State.takeApplication
  split
  · split
    · exact s.applySet_chain _
    · rfl
  · rfl

theorem State.takeApplication_taken (s : State) : s.takeApplication.applicationDue = false := by
  cases hdue : s.applicationDue with
  | false => rwa [State.takeApplication_idle hdue]
  | true =>
    obtain ⟨set, hf, hst⟩ := State.appliesNow_of_due hdue
    rw [State.takeApplication_due hf hst]
    exact s.applySet_applied set

theorem expireEntry_taken {e : Entry} {l' : Lease} (h : (expireEntry n e).entry.lease = some l') (he : l'.expiry = some n) : l'.mark ≠ none := by
  unfold expireEntry at h
  split at h
  · next l hl =>
    split at h
    · unfold retireLive at h
      split at h
      · cases h
      · cases h
        exact fun hc => by cases hc
    · next hno =>
      cases hl.symm.trans h
      exact fun hm => hno ⟨he, hm⟩
  · next hn => cases hn.symm.trans h

theorem State.takeExpiries_chain (s : State) : s.takeExpiries.chain = s.chain := by
  unfold State.takeExpiries
  split
  · exact State.onEveryEntry_chain ..
  · rfl

theorem State.takeExpiries_taken (hf : s.inFrame = true) : s.takeExpiries.ExpiriesTaken := by
  intro i l' hl' he
  rw [State.takeExpiries_chain] at he
  rw [State.takeExpiries, if_pos hf, State.lease?, State.onEveryEntry_entry] at hl'
  exact expireEntry_taken hl' he

theorem State.takeExpiries_stage (s : State) : s.takeExpiries.publisher.stage = s.publisher.stage
    ∨ s.takeExpiries.publisher.stage = .batching (sealFrameFrom s.chain.counter s.publisher.window) := by
  unfold State.takeExpiries
  split
  · exact s.onEveryEntry_stage _
  · exact .inl rfl

theorem Lease.afterSealing_expiry (l : Lease) : l.afterSealing.expiry = l.expiry ∧ (l.mark ≠ none → l.afterSealing.mark ≠ none) := by
  unfold Lease.afterSealing
  cases hq : l.sealing with
  | none => exact ⟨rfl, id⟩
  | some q =>
    rcases Lease.sealing_some.1 hq with ⟨cause, -, rfl⟩ | ⟨c, hm, -, rfl⟩
    · exact ⟨rfl, fun _ hc => by cases hc⟩
    · exact ⟨rfl, id⟩

theorem State.sealStaged_keepsExpiries (s : State) : s.KeepsExpiries s.sealStaged := by
  intro i l' hl'
  rw [State.sealStaged_lease, Option.map_eq_some_iff] at hl'
  obtain ⟨l, hl, rfl⟩ := hl'
  exact ⟨l, hl, l.afterSealing_expiry⟩

theorem State.endWindow_keepsExpiries (s : State) : s.KeepsExpiries s.endWindow := by
  unfold State.endWindow
  split
  · exact s.sealStaged_keepsExpiries
  · exact .of_leases rfl

theorem State.sealStaged_notDue (h : s.LeadInRange) : s.sealStaged.publisher.stage.NotDue s.chain.counter := by
  have hchain : s.sealedEntries.chain = s.chain := by rw [s.sealedEntries_frame]
  have hne : s.sealedEntries.switchFrameNow ≠ s.chain.counter := by
    have h' := State.switchFrameNow_ne (s := s.sealedEntries) (by rwa [State.LeadInRange, hchain])
    rwa [hchain] at h'
  rw [State.sealStaged_eq, State.beginSet_stage]
  split
  · exact ⟨fun set hc => hne (PublisherStage.switching.inj hc).2, nofun⟩
  · exact ⟨fun set => nofun, nofun⟩

theorem State.takeWindowEnd_chain (s : State) : s.takeWindowEnd.chain = s.chain := by
  unfold State.takeWindowEnd State.endWindow
  split
  · split
    · rw [s.sealStaged_frame]
    · rfl
  · rfl

theorem State.takeWindowEnd_keepsExpiries (s : State) : s.KeepsExpiries s.takeWindowEnd := by
  unfold State.takeWindowEnd
  split
  · exact s.endWindow_keepsExpiries
  · exact .of_leases rfl

theorem State.takeWindowEnd_notDue (hf : s.inFrame = true) (hlead : s.LeadInRange) (happ : s.applicationDue = false) :
    s.takeWindowEnd.publisher.stage.NotDue s.chain.counter := by
  unfold State.takeWindowEnd
  split
  · unfold State.endWindow
    split
    · exact State.sealStaged_notDue hlead
    · exact ⟨fun set => nofun, nofun⟩
  · next h => exact ⟨State.not_switching hf happ, State.not_batching hf (Bool.eq_false_iff.2 h)⟩

theorem State.Chooses.chain (h : s.Chooses t) : t.chain.counter = s.chain.counter ∧ t.chain.lead = s.chain.lead
    ∧ t.chain.frame.started = s.chain.frame.started ∧ t.chain.frame.control ≠ none := by
  cases h with
  | delivery d rest => cases d <;> simp [State.sendDelivery]
  | notice => simp [State.sendNotice]
  | _ => simp

theorem State.Chooses.notDue (h : s.Chooses t) (hst : s.publisher.stage.NotDue n) : t.publisher.stage.NotDue n := by
  cases h with
  | notice set n => exact ⟨fun set => by simp [State.sendNotice], by simp [State.sendNotice]⟩
  | delivery d rest => cases d <;> simpa [State.sendDelivery] using hst
  | _ => simpa using hst

/-- A device in whose frame only the choice of the message is left. -/
theorem State.takeChoice_settled (hf : s.inFrame = true) (hst : s.publisher.stage.NotDue s.chain.counter) (he : s.ExpiriesTaken) :
    s.takeChoice.Settled ∧ s.takeChoice.chain.lead = s.chain.lead := by
  unfold State.takeChoice
  rw [hf, Bool.true_and]
  split
  · have hch := s.chooseMessage_chooses
    obtain ⟨hcounter, hlead, hstarted, hcontrol⟩ := hch.chain
    have hnot := hch.notDue hst
    rw [← hcounter] at hnot
    refine ⟨⟨?_, State.applicationDue_eq_false hnot.application, ?_, State.windowDue_eq_false hnot.window, hcontrol⟩, hlead⟩
    · rw [State.inFrame, hch.chain_state, hstarted]
      exact hf
    · exact he.keeps (.of_leases hch.attention.1) hcounter
  · next hc =>
    exact ⟨⟨hf, State.applicationDue_eq_false hst.application, he, State.windowDue_eq_false hst.window, by simpa using hc⟩, rfl⟩

/-- The device once the window's end has been taken: the frame goes on, and only the choice is left. -/
theorem State.beforeChoice (hf : s.inFrame = true) (hlead : s.LeadInRange) :
    let t := s.takeApplication.takeExpiries.takeWindowEnd
    t.chain = s.chain ∧ t.publisher.stage.NotDue t.chain.counter ∧ t.ExpiriesTaken := by
  have hc1 := s.takeApplication_chain
  have hc2 := s.takeApplication.takeExpiries_chain.trans hc1
  have hc3 := s.takeApplication.takeExpiries.takeWindowEnd_chain.trans hc2
  have hf1 : s.takeApplication.inFrame = true := by rwa [State.inFrame, hc1]
  have hf2 : s.takeApplication.takeExpiries.inFrame = true := by rwa [State.inFrame, hc2]
  have happ : s.takeApplication.takeExpiries.applicationDue = false := by
    refine State.applicationDue_eq_false fun set hst => ?_
    rw [State.takeExpiries_chain] at hst
    rcases s.takeApplication.takeExpiries_stage with h | h <;> rw [h] at hst
    · exact State.not_switching hf1 s.takeApplication_taken set hst
    · cases hst
  refine ⟨hc3, ?_, ?_⟩
  · rw [hc3, ← hc2]
    exact State.takeWindowEnd_notDue hf2 (by rwa [State.LeadInRange, hc2]) happ
  · exact (State.takeExpiries_taken hf1).keeps (State.takeWindowEnd_keepsExpiries _) (by rw [hc3, hc2])

/-- The start of a frame leaves it settled. -/
theorem State.finishFrameStart_settled (hf : s.inFrame = true) (hlead : s.LeadInRange) :
    s.finishFrameStart.Settled ∧ s.finishFrameStart.chain.lead = s.chain.lead := by
  obtain ⟨hc, hst, he⟩ := State.beforeChoice hf hlead
  obtain ⟨h, hl⟩ := State.takeChoice_settled (by rwa [State.inFrame, hc]) hst he
  exact ⟨h, hl.trans (by rw [hc])⟩

/-- The events of the frame's start one after the other (R138, R141). -/
theorem State.finishFrameStart_runs (hf : s.inFrame = true) (hlead : s.LeadInRange) :
    State.Runs ([.setApplication] ++ allLeases.map .expiry ++ [.batchWindowEnd, .controlMessageChoice]) s s.finishFrameStart := by
  obtain ⟨-, hst, -⟩ := State.beforeChoice hf hlead
  have hf1 : s.takeApplication.inFrame = true := by rwa [State.inFrame, s.takeApplication_chain]
  have hexp := s.takeApplication.runs_expiries allLeases
  rw [State.foldl_takeExpiry_all hf1] at hexp
  refine ((State.Runs.cons (exec_setApplication s) (.nil _)).append hexp).append
    (.cons (exec_batchWindowEnd _) (.cons (exec_controlMessageChoice _) ?_))
  rw [State.takeApplication_idle (State.applicationDue_eq_false hst.application)]
  rfl

/-! ## The DOWN region and the response word (R136, R146) -/

/-- A step that leaves the frame, its message, what is not due and the expiries leaves the frame settled. -/
theorem State.Settled.transfer (hs : s.Settled) (hstate : t.chain.state = s.chain.state) (hcounter : t.chain.counter = s.chain.counter)
    (hstarted : t.chain.frame.started = s.chain.frame.started) (hcontrol : t.chain.frame.control = s.chain.frame.control)
    (hst : t.publisher.stage.NotDue s.chain.counter) (he : s.KeepsExpiries t) : t.Settled where
  frame := by
    rw [State.inFrame, hstate, hstarted]
    exact hs.frame
  application := State.applicationDue_eq_false (hcounter ▸ hst.application)
  expiry := State.ExpiriesTaken.keeps (s := s) hs.expiry he hcounter
  window := State.windowDue_eq_false (hcounter ▸ hst.window)
  control := hcontrol ▸ hs.control

theorem State.Settled.notDue (hs : s.Settled) : s.publisher.stage.NotDue s.chain.counter :=
  ⟨State.not_switching hs.frame hs.application, State.not_batching hs.frame hs.window⟩

theorem State.driveDown_atResponse (hs : s.Settled) : s.driveDown.AtResponse ∧ s.driveDown.chain.lead = s.chain.lead := by
  unfold State.driveDown
  rw [hs.frame, Bool.true_and]
  split
  · exact ⟨⟨hs.transfer rfl rfl rfl rfl hs.notDue (.of_leases rfl), fun hc => by cases hc⟩, rfl⟩
  · next h => exact ⟨⟨hs, by simpa using h⟩, rfl⟩

/-- What a missing response word leaves as it was: the frame but for the delivery list, and what is not due (R122, R146). -/
structure State.Misses (s t : State) : Prop where
  chain    : t.chain = { s.chain with delivery := t.chain.delivery }
  stage    : s.publisher.stage.NotDue s.chain.counter → t.publisher.stage.NotDue s.chain.counter
  expiries : s.KeepsExpiries t

theorem State.cascade_stage_notDue (hlead : s.LeadInRange) (hst : s.publisher.stage.NotDue s.chain.counter) (k : Position) :
    (s.cascade k).publisher.stage.NotDue s.chain.counter := by
  rcases (s.sweptState k).changeNotices_stage (s.keptNotices k) with ⟨set, -, -, h⟩ | ⟨set, -, -, h⟩ | ⟨set, f, hold, h⟩ | ⟨-, h⟩
  · rw [s.cascade_eq, h]
    exact ⟨fun _ => nofun, nofun⟩
  · rw [s.cascade_eq, h]
    refine ⟨fun _ hc => ?_, nofun⟩
    exact State.switchFrameNow_ne (s := s.sweptState k) hlead (PublisherStage.switching.inj hc).2
  · rw [s.cascade_eq, h]
    refine ⟨fun _ hc => ?_, nofun⟩
    have hold' : s.publisher.stage = .switching set f := hold
    exact hst.application set (hold'.trans (by rw [(PublisherStage.switching.inj hc).2]))
  · rw [s.cascade_eq, h]
    exact hst

theorem State.cleanedUp_keepsExpiries (s : State) : s.KeepsExpiries s.cleanedUp := by
  intro i l' hl'
  cases hl : s.lease? i with
  | none =>
    rw [State.lease?, (State.cleanedUp_free hl).1] at hl'
    cases hl.symm.trans hl'
  | some l =>
    obtain ⟨-, rfl⟩ := State.cleanedUp_lease hl hl'
    refine ⟨l, rfl, rfl, fun hm => ?_⟩
    by_cases ho : l.Orphaned s.isLost
    · rw [Lease.cleanedUp_marked ho]
      exact fun hc => by cases hc
    · rwa [Lease.cleanedUp_mark ho]

theorem State.loseMember_misses (hlead : s.LeadInRange) (k : Position) : s.Misses (s.loseMember k) where
  chain := by
    rw [s.loseMember_eq, State.releaseLost_chain, State.cleanedUp, State.onEveryEntry_chain, s.cascade_frame]
  stage hst := by
    have hu := State.cascade_stage_notDue hlead hst k
    have hcounter : (s.cascade k).chain.counter = s.chain.counter := by rw [s.cascade_frame]
    rw [s.loseMember_eq, State.releaseLost_publisher]
    rcases (s.cascade k).onEveryEntry_stage (fun _ e => cleanupEntry (s.cascade k).isLost e) with h | h
    · rw [State.cleanedUp, h]
      exact hu
    · rw [State.cleanedUp, h, hcounter]
      exact ⟨fun _ => nofun, fun hc => sealFrameFrom_ne _ _ (PublisherStage.batching.inj hc)⟩
  expiries := by
    rw [s.loseMember_eq]
    exact (State.KeepsExpiries.of_leases (s.cascade_leases k)).trans
      ((s.cascade k).cleanedUp_keepsExpiries.trans (.of_leases (State.releaseLost_leases _)))

theorem State.failAdmission_misses (s : State) (p : Position) : s.Misses (s.failAdmission p) where
  chain := by simp [State.failAdmission]
  stage hst := by simpa using hst
  expiries := .of_leases (by simp)

theorem State.Misses.of_setMember (s : State) (p : Position) (m : Member) {t : State} (h : (s.setMember p m).Misses t) : s.Misses t where
  chain := by
    have hc := h.chain
    rwa [State.setMember_chain] at hc
  stage := by
    have hst := h.stage
    rwa [State.setMember_chain, State.setMember_publisher] at hst
  expiries := (State.KeepsExpiries.of_leases (State.setMember_leases ..)).trans h.expiries

theorem State.countMiss_misses (hlead : s.LeadInRange) (p : Position) : s.Misses (s.countMiss p) := by
  rcases s.countMiss_cases p with ⟨h, -⟩ | ⟨h, -⟩ | ⟨h, -⟩ <;> rw [h] <;>
    refine .of_setMember s p { s.member p with misses := (s.member p).misses + 1 } ?_
  · exact ⟨rfl, id, .of_leases rfl⟩
  · exact State.loseMember_misses (by rwa [State.LeadInRange, State.setMember_chain]) p
  · exact State.failAdmission_misses _ p

/-- A word that did not come, once it was due, is taken as a miss or as a silent open call. -/
theorem State.takeResponse_zero (hf : s.inFrame = true) (hlead : s.LeadInRange) :
    (s.takeResponse 0 = s ∧ (s.unanswered = none ∨ s.unanswered = some .idle ∨ s.unanswered = some .switch))
    ∨ s.responseTaken.Misses (s.takeResponse 0) := by
  cases hu : s.unanswered with
  | none => exact .inl ⟨State.takeResponse_idle (State.responseDue_answered (.inl hu)), .inl rfl⟩
  | some m =>
    cases m with
    | idle => exact .inl ⟨State.takeResponse_idle (State.responseDue_answered (.inr (.inl hu))), .inr (.inl rfl)⟩
    | switch => exact .inl ⟨State.takeResponse_idle (State.responseDue_answered (.inr (.inr hu))), .inr (.inr rfl)⟩
    | openCall t =>
      have hjoin : validJoin t 0 = false := by
        have h : wordSound 0 = false := by decide
        rw [validJoin, h]
        rfl
      rw [State.takeResponse_openCall hf hu, hjoin]
      exact .inr ⟨rfl, id, .of_leases rfl⟩
    | addressed k p =>
      rw [State.takeResponse_invalid hf hu State.validResponse_zero]
      exact .inr (State.countMiss_misses (s := s.responseTaken) hlead p)

theorem State.takeResponse_atUpRegion (hs : s.AtResponse) (hlead : s.LeadInRange) : (s.takeResponse 0).AtUpRegion := by
  rcases State.takeResponse_zero hs.settled.frame hlead with ⟨h, hun⟩ | h
  · rw [h]
    exact ⟨hs, hun⟩
  · have hframe : (s.takeResponse 0).chain.frame = s.responseTaken.chain.frame := by rw [h.chain]
    refine ⟨⟨hs.settled.transfer (by rw [h.chain]; rfl) (by rw [h.chain]; rfl) (by rw [hframe]; rfl) (by rw [hframe]; rfl)
      (h.stage hs.settled.notDue) h.expiries, ?_⟩, .inl ?_⟩
    · rw [hframe]
      exact hs.driven
    · rw [State.unanswered, hframe]
      rfl

end

/-! ## The commands of a frame -/

section
variable {s : State}

theorem exec_frameStart_running (h : s.chain.state = .running) : exec .frameStart s = .next s.reachUpRegion.openFrame := by
  rw [exec_frameStart, if_pos h]

theorem State.readSlot_outside (h : s.inFrame = false) (i : LeaseIndex) (k : Fin 8) (region : BitVec 440) : s.readSlot i k region = s :=
  State.readSlot_idle fun l o _ _ => by simp [State.readsSlot, h]

theorem State.missDue_outside (h : s.inFrame = false) (p : Position) (st : MemberState) : s.missDue p st = false := by
  simp [State.missDue, State.awaits, h]

end

/-- Settles O35: each part of the frame leaves nothing before it due, so that a command taken from there is the command itself. -/
theorem dueEventsAreTakenFirst : Obligations.DueEventsAreTakenFirst := by
  unfold Obligations.DueEventsAreTakenFirst
  refine fun s => ⟨fun lead hf hl h1 h64 => ?_, fun hout => ?_⟩
  · have hlead : s.LeadInRange := ⟨lead, hl, h1, h64⟩
    obtain ⟨hsettled, hlead1⟩ := State.finishFrameStart_settled hf hlead
    obtain ⟨hat, hlead2⟩ := State.driveDown_atResponse hsettled
    have hresponse : s.reachResponse.AtResponse := hat
    have hlead' : s.reachResponse.LeadInRange := ⟨lead, (hlead2.trans hlead1).trans hl, h1, h64⟩
    have hup : s.reachUpRegion.AtUpRegion := State.takeResponse_atUpRegion hresponse hlead'
    have hagain := hresponse.reach
    refine ⟨State.finishFrameStart_runs hf hlead, hsettled, ?_, rfl, hresponse, fun w => ?_, fun p => ⟨?_, ?_⟩, rfl, hup, fun i k region => ?_, ?_⟩
    · exact congrArg (fun t : State => (Host.Outcome.next t.driveDown : Host.Outcome State Fault Refusal)) hsettled.finish.symm
    · exact congrArg (fun t : State => (Host.Outcome.next (t.takeResponse w) : Host.Outcome State Fault Refusal)) hagain.symm
    · rw [exec_memberLoss hresponse]
      rfl
    · rw [exec_admissionFailure hresponse]
      rfl
    · rw [exec_upSlotRead hup]
      rfl
    · rw [exec_frameStart_running (State.inFrame_running hf), exec_frameStart_running (State.inFrame_running hup.response.settled.frame), hup.reach]
  · have happ : s.applicationDue = false := by simp [State.applicationDue, hout]
    have hwin : s.windowDue = false := by simp [State.windowDue, hout]
    have hreach := State.reachResponse_outside hout
    refine ⟨fun i => ?_, ?_, ?_, ?_, fun w => ?_, ?_, fun i k region => ?_, fun p => ⟨?_, ?_⟩, fun d => ?_⟩
    · simp [exec_expiry, State.takeExpiry, hout]
    · rw [exec_batchWindowEnd, State.takeWindowEnd_idle hwin]
    · rw [exec_setApplication, State.takeApplication_idle happ]
    · simp [exec_controlMessageChoice, State.takeApplication_idle happ, State.takeChoice, hout]
    · show Host.Outcome.next (s.reachResponse.takeResponse w) = _
      rw [hreach, State.takeResponse_idle (State.responseDue_outside hout)]
    · exact congrArg _ hreach
    · show Host.Outcome.next (s.reachUpRegion.readSlot i k region) = _
      rw [State.reachUpRegion_outside hout, State.readSlot_outside hout]
    · show Host.Outcome.next (if s.reachResponse.missDue p .joined then s.reachResponse.takeMiss p else s.reachResponse) = _
      rw [hreach, State.missDue_outside hout]
      rfl
    · show Host.Outcome.next (if s.reachResponse.missDue p .admitting then s.reachResponse.takeMiss p else s.reachResponse) = _
      rw [hreach, State.missDue_outside hout]
      rfl
    · rw [exec_lbckPeriod, hout]
      rfl

end Sys2Proof.Machine
end
